-- ==== Sys2Proof/Word.lean ====
section
/-! DEFINITION. The word types of the bridge: bytes, the 32-bit uptime, 16-bit fields, and the sets of image
positions, with their plainest arithmetic. -/

namespace Sys2Proof

/-- One byte, on the host bus, on the two-wire bus or on the service port. -/
abbrev Byte := BitVec 8

/-- A 16-bit field: the check word, the event enable mask, a fault number. -/
abbrev Half := BitVec 16

/-- A 32-bit count: the uptime in ms, or the bus timer in steps of 50 ns. -/
abbrev Word := BitVec 32

/-- The number of a device, a window or a buffer, 0 to 7. -/
abbrev Index := Fin 8

/-- One flag for each of the 64 image positions: bit `p` belongs to position `p`. -/
abbrev Mask := BitVec 64

/-- The eight numbers in ascending order. -/
def allIndices : List Index := [0, 1, 2, 3, 4, 5, 6, 7]

/-- Whether position `p` is set in `m`. -/
def Mask.has (m : Mask) (p : Nat) : Bool := m.getLsbD p

/-- `m` with position `p` set. -/
def Mask.add (m : Mask) (p : Nat) : Mask := m ||| (1#64 <<< p)

/-- The mask of the positions listed. -/
def Mask.of (ps : List Nat) : Mask := ps.foldl Mask.add 0#64

end Sys2Proof
end

