-- ==== Sys2Proof/Syntax.lean ====
section
/-! DEFINITION. The commands of the bridge: one constructor of `Instr` for each row of spec/opcode_table.json,
with what reaches the bridge at that step from outside it as operands
(DESIGN CHOICE, log entry 1). -/

namespace Sys2Proof

/-- One of the two lines of the two-wire bus. -/
inductive Line where
  | scl
  | sda
  deriving DecidableEq, Repr

/-- What the two-wire bus brings, byte by byte, within a transaction between two of the table's rows (R109 to R111; DESIGN
CHOICE, log entry 15): its open or re-open has been sent; a byte that the bridge sent has ended its ninth clock, and the
transaction goes on; a byte has been received whole. -/
inductive BusByte where
  | opened
  | sent
  | received (v : Byte)
  deriving DecidableEq, Repr

/-- What passes on the two-wire bus within a step of 100 µs (R104, R106; DESIGN CHOICE, log entries 15 and 47): a whole byte,
`steps` steps of 50 ns, in which the engine goes on by at most one half bit, or the level to which another party takes SDA
while the bridge holds SCL low. -/
inductive BusEvent where
  | byte (b : BusByte)
  | pass (steps : Nat)
  | sda (level : Bool)
  deriving DecidableEq, Repr

/-- R146: an edge of SCK: a rising edge, at which SDI is sampled at the level `sdi`, or a falling edge. -/
inductive SckEdge where
  | rise (sdi : Bool)
  | fall
  deriving DecidableEq, Repr

/-- How far the transaction in progress had come when it was cut off (R119, R120): whether its target had
acknowledged an address byte, how many bytes of the current SEND step had gone out whole, and the bytes received
whole that no other command has handed over. -/
structure Progress where
  addressed : Bool
  sent : Nat
  received : List Byte
  deriving DecidableEq, Repr

/-- R114: the outcomes a write run reports at its close. `index` is the byte index of R110. -/
inductive RunOutcome where
  | completed
  | addressNack
  | dataNack (index : Nat)
  deriving DecidableEq, Repr

/-- R114: the outcomes a fill reports at its close, with the bytes that no other command has handed over. `reopened`
tells an address NACK on the re-open from one on the first open. -/
inductive FillOutcome where
  | completed (bytes : List Byte)
  | addressNack (reopened : Bool)
  | dataNack (index : Nat)
  deriving DecidableEq, Repr

/-- R97: how a VERIFY read ends at a close without being COMPLETED. -/
inductive VerifyFailure where
  | addressNack (reopened : Bool)
  | dataNack (index : Nat)
  deriving DecidableEq, Repr

/-- R132, R135: what the close of a direct sequence's transaction followed: the CLOSE step or the close of an abort,
a refused address byte, or a refused byte of a checked SEND step (its position within the step). -/
inductive SequenceClose where
  | closed
  | addressNack
  | dataNack (index : Nat)
  deriving DecidableEq, Repr

/-- R167: the NACK that ended an attempt of the layout record read. -/
inductive AttemptNack where
  | address
  | data (index : Nat)
  deriving DecidableEq, Repr

/-- The commands, in the order of the table. Line levels are `true` for high. The argument bytes of a service command
are those clocked in so far; they need not be all the command takes (R146, R149). -/
inductive Instr where
  /-- RESET: the straps and the line levels at the end of the reset. -/
  | reset (bootA : BitVec 3) (bootW : Bool) (scl : Bool) (sda : Bool)
  /-- TIME_BASE_TICK: what passed on the two-wire bus in the 100 µs that end here, in order, and the edges of SCK in
  them; by default nothing (DESIGN CHOICE, log entries 15, 16 and 47). -/
  | timeBaseTick (traffic : List BusEvent := []) (edges : List SckEdge := [])
  /-- HOST_ACCESS_TAKEN: HWE# low, HA[19:1], HLB# low, HUB# low and HD[15:0] at the taking edge. -/
  | hostAccessTaken (write : Bool) (half : BitVec 19) (laneL : Bool) (laneU : Bool) (hd : BitVec 16)
  | accessEnd
  | withdrawal
  | waitingWriteRetry
  | verifyAllocationRetry
  | readDeviceWaitEnd
  | modeHoldEnd
  | gatherDeadlineExpiry (n : Index)
  | busGrant
  | streamOpenAddressed
  | streamOpenNacked (reopened : Bool)
  | streamByteReceived (value : Byte)
  | parkDeadlineExpiry
  | writeRunEnd (outcome : RunOutcome)
  | fillEnd (outcome : FillOutcome)
  /-- VERIFY_READ_END: the bytes of the page that no other command has handed over. -/
  | verifyReadEnd (bytes : List Byte)
  | verifyReadFailure (outcome : VerifyFailure)
  | probeDue (device : Index)
  | probeEnd (acknowledged : Bool)
  /-- FOREIGN_OPEN: which line another party has pulled low (R105, R107). -/
  | foreignOpen (line : Line)
  | foreignClose
  | foreignBusFree
  | freeDeadline
  | arbitrationLoss (progress : Progress)
  | stretchTimeout (progress : Progress)
  /-- SCL_RISE_AFTER_TIMEOUT: the level of SDA in the high phase of SCL. -/
  | sclRiseAfterTimeout (sda : Bool)
  | busClearGrant
  /-- BUS_CLEAR_END: whether SDA was sampled high within nine pulses. -/
  | busClearEnd (freed : Bool)
  | sclHeldTimeout
  | stuckCheck
  | recoveryWatchEnd
  /-- SEQUENCE_STEP_END: the bytes a RECEIVE step received that no other command has handed over. -/
  | sequenceStepEnd (bytes : List Byte)
  | sequenceEnd (outcome : SequenceClose)
  | frameBegin
  | frameEnd
  | unknownCommand (code : Byte)
  | getStatus
  | getEvents
  | acknowledgeEvents (args : List Byte)
  | setEventMask (args : List Byte)
  | peekFault
  | dropFault (args : List Byte)
  | getBuffer (args : List Byte)
  | flush
  | flushDone
  | release (args : List Byte)
  | reissue (args : List Byte)
  | force (args : List Byte)
  | submitSequence (args : List Byte)
  | getSequenceResult
  | abortSequence
  | reloadLayout
  | getLayout
  | reloadStageAdvance
  | recordReadNextAttempt
  | startupRecordReadEnd (bytes : List Byte)
  | reloadRecordReadEnd (bytes : List Byte)
  | powerFailFlush
  | flushEnd
  | safeExit
  | streamOpenDataNack (index : Nat)
  | recordReadAttemptNacked (outcome : AttemptNack)
  /-- FOREIGN_LOW_PERIOD_END: the level of SDA at the rise of SCL. -/
  | foreignLowPeriodEnd (sda : Bool)
  deriving DecidableEq, Repr

end Sys2Proof
end

