-- ==== Sys2Proof/Decode.lean ====
section
/-! DEFINITION. The command a word of spec/opcode_table.json spells. The table gives bits to none of its 65 rows:
the rows are steps of the part, and what reaches the part at a step has no instruction word. So no word spells a
command (DESIGN CHOICE, log entry 13). -/

namespace Sys2Proof

/-- No row of the table gives bits, so no word spells a command. -/
def decodeTableWord (_nbits _w : Nat) : Option Instr := none

end Sys2Proof
end

