-- ==== Sys2Proof/Config.lean ====
section
/-! DEFINITION. The fixed figures of the DRAVEC-340, each from the rule its docstring names. The spec leaves no
value open that a command computes, so there is no free value here (DEDUCED, log entry 12). -/

namespace Sys2Proof.Config

/-- R157: the time base advances in steps of 100 µs, ten to the millisecond. -/
def stepsPerMs : Nat := 10

/-- R121: a bus clear sends up to nine clock pulses. -/
def clearPulses : Nat := 9

/-- R106, R157: one step of the time base (100 µs) is 2000 steps of the 50 ns bus timer. -/
def busStepsPerTick : Nat := 2000

/-- R122: a foreign low period of 35 ms makes the bus STUCK (in 100 µs steps). -/
def stuckLimit : Nat := 350

/-- R122, R123: a STUCK bus is checked every 50 ms (in 100 µs steps). -/
def stuckRecheck : Nat := 500

/-- R55, R56: revive probes are 50 ms apart (in 100 µs steps). -/
def reviveInterval : Nat := 500

/-- R167: an attempt of the record read follows an address NACK after 500 µs (in 100 µs steps). -/
def attemptInterval : Nat := 5

/-- R167: no attempt falls more than 64 ms after the first address NACK (in 100 µs steps). -/
def attemptSpan : Nat := 640

/-- R107: both lines high for 100 µs free a FOREIGN bus (in 50 ns bus steps). -/
def idleHighTime : Nat := 2000

/-- R121: SCL high and SDA low for 1 ms let a grant start a bus clear (in 50 ns bus steps). -/
def heldDataTime : Nat := 20000

/-- R123: the recovery watch runs for 100 µs (in 50 ns bus steps). -/
def watchTime : Nat := 2000

/-- R175: the length of the layout record. -/
def recordLength : Nat := 144

/-- R117: the pass count at which a commit or direct request is promoted. -/
def passLimit : Nat := 4

/-- R162: the records the fault log holds. -/
def logDepth : Nat := 8

/-- R159: the value at which an event count, the overflow count and a NACK count stand still. -/
def countLimit : Nat := 255

/-- R3: the host space in 256-byte units (1 MiB). -/
def hostUnits : Nat := 4096

end Sys2Proof.Config
end

