-- ==== Sys2Proof/Machine/State.lean ====
section
/-! DEFINITION. Everything the spec gives the DRAVEC-340 to hold, block by block, as plain data, and its value right
after reset. A field the spec marks "present only in" some states stands in the constructor of those states. -/

namespace Sys2Proof.Machine

/-! ### Times (R157, R158) -/

/-- A time held to 100 µs: the uptime and the fraction (R157). -/
structure Stamp where
  ms : Word
  frac : Fin 10
  deriving DecidableEq, Repr

/-- A deadline set as `since` plus `period` steps of 100 µs; R158 tests it on the time elapsed from `since`. -/
structure Deadline where
  since : Stamp
  period : Nat
  deriving DecidableEq, Repr

/-! ### The layout: Device Table, Window Table and parameters (R1, R3, R5) -/

/-- R1: the two kinds of device. -/
inductive DeviceKind where
  | cycled
  | immediate
  deriving DecidableEq, Repr

/-- R1: one entry of the Device Table. `capacityCode` k stands for 256 × 2^k bytes, `pageCode` c for 8 × 2^c bytes
(R175). -/
structure DeviceEntry where
  target : BitVec 7
  addressBytes : Nat
  blockBits : Nat
  capacityCode : Nat
  pageCode : Nat
  kind : DeviceKind
  cycleLimit : Nat
  deriving DecidableEq, Repr

/-- R3: one entry of the Window Table. `hostBase` and `deviceOffset` count 256-byte units, `sizeCode` k stands for
256 × 2^k bytes, `gatherTime` is in ms. -/
structure WindowEntry where
  hostBase : Nat
  sizeCode : Nat
  device : Index
  deviceOffset : Nat
  readOnly : Bool
  checked : Bool
  mergeFill : Bool
  gatherTime : Nat
  deriving DecidableEq, Repr

/-- R5: the bus rate. -/
inductive BusRate where
  | kHz100
  | kHz400
  | kHz1000
  deriving DecidableEq, Repr

/-- R5: the parameters of the layout; the times are in 100 µs steps. -/
structure Params where
  rate : BusRate
  poll : Nat
  park : Nat
  stretch : Nat
  retries : Nat
  depth : Nat
  reserve : Nat
  eventMask : Half
  deriving DecidableEq, Repr

/-- R1, R3, R5: the layout in force. Absent entries of the two tables are `none`. -/
structure Layout where
  devices : Vector (Option DeviceEntry) 8
  windows : Vector (Option WindowEntry) 8
  params : Params
  deriving DecidableEq, Repr

/-- R6: the fallback parameters, in force from every reset on. -/
def Params.fallback : Params :=
  { rate := .kHz100, poll := 5, park := 10, stretch := 100, retries := 3, depth := 4, reserve := 1, eventMask := 0xFFFF#16 }

/-- R6: the layout of a reset: both tables empty, the fallback parameters. -/
def Layout.empty : Layout :=
  { devices := Vector.replicate 8 none, windows := Vector.replicate 8 none, params := .fallback }

/-- R166, R168: where the layout in force came from. -/
inductive LayoutSource where
  | record
  | fallback
  deriving DecidableEq, Repr

/-! ### The translation record (R12) -/

/-- R12: what the Translator hands on with a MAPPED access. -/
structure Translation where
  window : Index
  device : Index
  kind : DeviceKind
  pageSize : Nat
  page : Nat
  pageStart : Nat
  positions : List Nat
  target : BitVec 7
  addressBytes : List Byte
  lastOffset : Nat
  checked : Bool
  mergeFill : Bool
  gatherTime : Nat
  deriving DecidableEq, Repr

/-- R11: the four outcomes of classification, with what R12 hands on. `position` is the first touched check byte. -/
inductive Classification where
  | unmapped
  | readOnly (window : Index)
  | checkBytes (window : Index) (position : Nat)
  | mapped (t : Translation)
  deriving DecidableEq, Repr

/-! ### The Page Buffer Table (R17 to R42) -/

/-- The 64 bytes of a page image (R17). -/
abbrev Image := Vector Byte 64

/-- R62: one run: a first position and a byte count. -/
structure Run where
  first : Nat
  count : Nat
  deriving DecidableEq, Repr

/-- R17: why a buffer is HELD. -/
inductive HoldCause where
  | dataRefused
  | cycleTimeout
  | deviceSilent
  | retryExhausted
  | checkMismatch
  deriving DecidableEq, Repr

/-- R18: the eight states of a buffer that holds a page, each with the fields that R17 makes present in it alone.
`start` of VERIFY is the host address of the byte that started the VERIFY, which the fault of R96 names. -/
inductive Phase where
  | gather (deadline : Word)
  | sealed (forced : Bool)
  | fill (forced : Bool)
  | commit (forced : Bool) (runs : List Run)
  | cycle (forced : Bool) (runs : List Run)
  | verify (start : Nat)
  | clean (lastUse : Word)
  | held (cause : HoldCause)
  deriving DecidableEq, Repr

/-- R17: the fields present in every state but FREE. -/
structure PageHold where
  device : Index
  page : Nat
  generation : Nat
  written : Mask
  source : Mask
  lastWrite : Word
  retries : Nat
  phase : Phase
  deriving DecidableEq, Repr

/-- R17: one buffer record. `hold` is absent in FREE; the image is present in every state. -/
structure Buffer where
  image : Image
  hold : Option PageHold
  deriving DecidableEq, Repr

/-- R18: the nine buffer states. -/
inductive BufferState where
  | free
  | gather
  | sealed
  | fill
  | commit
  | cycle
  | verify
  | clean
  | held
  deriving DecidableEq, Repr

/-- R17, R31, R38: the eight buffers, the commit queue (head first) and the flush watch. -/
structure BufferTable where
  buffers : Vector Buffer 8
  queue : List Index
  flushWatch : Bool
  deriving DecidableEq, Repr

/-! ### The Commit Engine (R43 to R68) -/

/-- R51: a device's next-probe time, and whether its probe has fallen due and not been granted since. -/
structure ProbeTimer where
  next : Deadline
  due : Bool
  deriving DecidableEq, Repr

/-- R47: the status of a device with the times present in it. -/
inductive DeviceStatus where
  | ready
  | cycling (start : Stamp) (probe : ProbeTimer)
  | silent (probe : ProbeTimer)
  deriving DecidableEq, Repr

/-- R47: one entry of the Device Status Table; `nacks` is the consecutive-NACK count. -/
structure DeviceRecord where
  status : DeviceStatus
  nacks : Nat
  deriving DecidableEq, Repr

/-- R46, R47: the Device Status Table and the request list (head first). An entry of the list names its buffer; the
transaction it stands for is the buffer's fill in FILL and its first run in COMMIT. -/
structure CommitEngine where
  devices : Vector DeviceRecord 8
  requests : List Index
  deriving DecidableEq, Repr

/-! ### The Read Path (R69 to R89) -/

/-- R75: the fields of an open stream. -/
structure StreamPos where
  device : Index
  next : Nat
  last : Nat
  deriving DecidableEq, Repr

/-- R75: the stream record. -/
inductive Stream where
  | closed
  | opening (p : StreamPos)
  | running (p : StreamPos)
  | parked (p : StreamPos) (deadline : Deadline)
  | closing (p : StreamPos)
  deriving DecidableEq, Repr

/-- R72: the read-ahead queue: the bytes of device `device` from offset `first` on. Empty, its device and offset
are 0. -/
structure ReadAhead where
  device : Index
  first : Nat
  bytes : List Byte
  deriving DecidableEq, Repr

/-- R70, R93: what a read waits for. `none` while the stream or the VERIFY read works for it; `close` while the
stream of another place closes for it, `restart` telling whether its byte is then sought again at forwarding (R76). -/
inductive ReadWait where
  | none
  | device
  | bus
  | buffer
  | close (restart : Bool)
  deriving DecidableEq, Repr

/-- R70: the read record. The current byte is the first touched byte without a value. -/
structure ReadRecord where
  translation : Translation
  values : List Byte
  retries : Nat
  wait : ReadWait
  verifyBuffer : Option Index
  deriving DecidableEq, Repr

/-- R72, R75: the stream record and the read-ahead queue. `dropsAhead` stands while the stream that was open when a reload
emptied the queue is still open: its bytes no longer join the queue (R88, R170, R171; DEDUCED, log entry 7). -/
structure ReadPath where
  stream : Stream
  ahead : ReadAhead
  dropsAhead : Bool
  deriving DecidableEq, Repr

/-! ### The Host Memory Port (R137 to R145) -/

/-- R137: what the port latches of an access. `data` holds one byte for each selected lane of a write, lane L first. -/
structure HostRequest where
  write : Bool
  half : BitVec 19
  laneL : Bool
  laneU : Bool
  data : List Byte
  deriving DecidableEq, Repr

/-- R137: what a WAITING access waits on: the mode, the Page Buffer Table (a write waiting for a buffer, R25), or the
Read Path, which keeps the read record (R70). -/
inductive Hold where
  | mode
  | buffers (t : Translation)
  | readPath (r : ReadRecord)
  deriving DecidableEq, Repr

/-- R143: the answer held while ANSWERED: HERR, and HD where the port drives it (a read). -/
structure Answer where
  herr : Bool
  hd : Option (BitVec 16)
  deriving DecidableEq, Repr

/-- R137: the access record. -/
inductive Access where
  | idle
  | waiting (req : HostRequest) (hold : Hold)
  | answered (req : HostRequest) (answer : Answer)
  deriving DecidableEq, Repr

/-! ### The Two-Wire Bus Engine (R104 to R124) -/

/-- R106: the bus states. -/
inductive BusStatus where
  | free
  | owned
  | foreign
  | clearing
  | stuck
  deriving DecidableEq, Repr

/-- R109: what the transaction in progress is for; its kind and its requester follow. A record read whose reload was
abandoned is `discarded`: it runs to its outcome, which is dropped (R171). -/
inductive Job where
  | run (buffer : Index)
  | fill (buffer : Index)
  | verify (buffer : Index)
  | recordRead (discarded : Bool)
  | stream
  | probe (device : Index)
  | sequence
  deriving DecidableEq, Repr

/-- R109: the phases of a transaction. -/
inductive BusPhase where
  | open
  | address
  | send
  | reopen
  | receive
  | park
  | close
  deriving DecidableEq, Repr

/-- R110: what a NACK has refused: the address byte, of the open or of the re-open, or the byte of an index after it. -/
inductive Refused where
  | address (reopened : Bool)
  | byte (index : Nat)
  deriving DecidableEq, Repr

/-- R104, R106, R121: the half bits of the engine: of an open, of a re-open, of a close (after a byte that a NACK has
refused, or after none), of a clock of a byte, `bits` being the levels of SDA that its clocks before have sampled, and of
the pulse number `n` of a bus clear. -/
inductive HalfBit where
  | open
  | reopenLow
  | reopenHigh
  | reopenFall
  | closeLow (refused : Option Refused)
  | closeHigh (refused : Option Refused)
  | clockLow (bits : List Bool)
  | clockHigh (bits : List Bool)
  | pulseLow (n : Nat)
  | pulseHigh (n : Nat)
  deriving DecidableEq, Repr

/-- R106: the bit phase that the engine holds on its bus timer: the half bit in progress, and the time at which it began. -/
structure Wire where
  half : HalfBit
  since : Word
  deriving DecidableEq, Repr

/-- R109: the transaction in progress. `read` is the direction bit of the current address byte (R104), `toSend` the
bytes that the bridge still sends after it (R59, R63, R77, R94, R131), `received` the bytes received whole since it, of a
direct sequence those of the current step (R111). `remaining` counts data bytes alone (DESIGN CHOICE, log entry 38). -/
structure Transaction where
  job : Job
  target : BitVec 7
  read : Bool
  phase : BusPhase
  byteIndex : Nat
  remaining : Option Nat
  toSend : List Byte
  received : List Byte
  deriving DecidableEq, Repr

/-- R121: what a bus clear is made for. -/
inductive ClearCause where
  | grant
  | afterTimeout
  | stuckCheck
  deriving DecidableEq, Repr

/-- R115: the requests of the host-read class. -/
inductive HostReadRequest where
  | streamOpen (device : Index) (offset : Nat)
  | verify (buffer : Index)
  | recordRead
  deriving DecidableEq, Repr

/-- R116: the last-granted mark. -/
inductive GrantMark where
  | commit
  | direct
  deriving DecidableEq, Repr

/-- R106, R157: a time of the lines, read on the 50 ns bus timer and on the time base to 100 µs. -/
structure LineTime where
  timer : Word
  stamp : Stamp
  deriving DecidableEq, Repr

/-- R104 to R117: the levels of the lines that the other parties make (`true` is high; log entry 30), the bus timer, the bus
state record, the transaction in progress, the arbiter, and three conditions of the engine: a wait for SCL to rise after a
stretch timeout (R120), a bus clear in progress (R121), the start of the recovery watch (R123). `wire` is the half bit in
progress; absent, the first one of the phase has yet to begin (log entry 47). The idle-high start is held
on the bus timer, as R106 says, and on the time base, as R157 lists it (DESIGN CHOICE, log entry 36).
The probe, commit and direct requests of the arbiter follow from the due probes, the request list and the slot. -/
structure Bus where
  status : BusStatus
  scl : Bool
  sda : Bool
  timer : Word
  lowStart : Option Stamp
  idleHigh : Option LineTime
  heldData : Option Word
  freeAt : Option Word
  nextCheck : Option Deadline
  transaction : Option Transaction
  wire : Option Wire
  awaitRise : Bool
  clear : Option ClearCause
  watch : Option Word
  hostReads : List HostReadRequest
  lastGranted : GrantMark
  passCommit : Nat
  passDirect : Nat
  deriving DecidableEq, Repr

/-! ### The Direct Sequencer (R125 to R136) -/

/-- R127: the four kinds of step. -/
inductive SeqStep where
  | open (target : BitVec 7) (read : Bool)
  | send (n : Nat) (check : Bool)
  | receive (n : Nat) (lastNack : Bool)
  | close
  deriving DecidableEq, Repr

/-- R136: the outcomes of a sequence. -/
inductive SeqOutcome where
  | done
  | nacked
  | lost
  | timeout
  | stuck
  | aborted
  deriving DecidableEq, Repr

/-- R136: the result record. -/
structure SeqResult where
  outcome : SeqOutcome
  endingStep : Nat
  byteIndex : Option Nat
  received : Nat
  bytes : List Byte
  deriving DecidableEq, Repr

/-- R125: the slot state with the fields present in it. Steps are numbered from 1. -/
inductive SlotState where
  | empty
  | waiting (steps : List SeqStep) (outLength received retries : Nat)
  | running (steps : List SeqStep) (outLength received retries current outPos : Nat) (abort : Bool)
  | finished (steps : List SeqStep) (outLength received : Nat) (result : SeqResult)
  deriving DecidableEq, Repr

/-- R125: the sequence slot; the two areas are present in every state. -/
structure Slot where
  state : SlotState
  outArea : Vector Byte 32
  inArea : Vector Byte 32
  deriving DecidableEq, Repr

/-! ### The Service Port (R146 to R156) -/

/-- R151: the reply statuses. -/
inductive Reply where
  | ok
  | busy
  | wrongState
  | badArgument
  | unknown
  | heldPresent
  | targetConflict
  | notReady
  deriving DecidableEq, Repr

/-- R146: the frame record. `bits` are the bits of the current byte sampled so far, the first one first, whose number is
the bit count; after a command was taken, when they are ignored (R147), it is the bit count alone. `shifted` counts the
bytes shifted out since then, the reply status first (R147). -/
inductive Frame where
  | idle
  | command (bits : List Bool)
  | arguments (code : Byte) (args : List Byte) (expected : Nat) (bits : List Bool)
  | answering (code : Byte) (args : List Byte) (expected : Nat) (bits : Nat) (reply : Reply) (response : List Byte)
      (shifted : Nat)
  deriving DecidableEq, Repr

/-- R146: the frame record and the levels of the pins SCS# and SCK (`true` is high). -/
structure ServicePort where
  frame : Frame
  scs : Bool
  sck : Bool
  deriving DecidableEq, Repr

/-! ### The Event Unit (R157 to R165) -/

/-- R162: the sixteen fault kinds, in the order of their codes (R177). -/
inductive FaultKind where
  | unmapped
  | readOnly
  | checkBytes
  | noBuffer
  | deviceSilentAccess
  | readNack
  | readRetries
  | checkMismatchRead
  | checkMismatchFill
  | dataRefused
  | cycleTimeout
  | noAnswer
  | commitRetries
  | busStuck
  | layoutRejected
  | reloadAbandoned
  deriving DecidableEq, Repr

/-- R162: a fault as the block that logs it names it, before it has a number and a time. -/
structure FaultInfo where
  kind : FaultKind
  detail : Byte
  device : Option Index
  window : Option Index
  buffer : Option Index
  place : Option Nat
  deriving DecidableEq, Repr

/-- R162: one record of the fault log. -/
structure FaultRecord where
  number : Half
  time : Word
  info : FaultInfo
  deriving DecidableEq, Repr

/-- R159: the sixteen event kinds, in the order of their numbers. -/
inductive EventKind where
  | writeRefused
  | readFailed
  | bufferHeld
  | deviceSilent
  | deviceRevived
  | checkMismatch
  | arbitrationLost
  | stretchTimeout
  | busStuck
  | busRecovered
  | sequenceFinished
  | flushDone
  | safeReached
  | layoutLoaded
  | layoutRejected
  | logOverflow
  deriving DecidableEq, Repr

/-- R157 to R163: the time base, the event counts, the enable mask in force, the fault log (oldest first), the fault
number counter and the overflow count. -/
structure EventUnit where
  uptime : Word
  fraction : Fin 10
  counts : Vector Nat 16
  mask : Half
  log : List FaultRecord
  counter : Half
  overflow : Nat
  deriving DecidableEq, Repr

/-! ### The Mode Controller (R166 to R174) -/

/-- R166: the stages of a reload. -/
inductive ReloadStage where
  | draining
  | sequence
  | reading
  deriving DecidableEq, Repr

/-- R166: the modes; the reload stage is present in RELOADING. -/
inductive Mode where
  | starting
  | running
  | reloading (stage : ReloadStage)
  | flushing
  | safe
  deriving DecidableEq, Repr

/-- R167: the attempt record of a record read. `failed` is set from the event that fails the read to the step that
ends it. -/
structure RecordRead where
  retries : Nat
  firstNack : Option Stamp
  nextAttempt : Option Deadline
  failed : Bool
  deriving DecidableEq, Repr

/-- R166: the mode record, and the level of the PFW# pin (`true` is high). -/
structure ModeControl where
  mode : Mode
  source : Option LayoutSource
  bootTarget : BitVec 7
  bootBytes : Nat
  recordRead : Option RecordRead
  pfw : Bool
  deriving DecidableEq, Repr

/-! ### The machine -/

/-- The whole bridge, block by block, and the queue of the commands that wait for it. -/
structure State where
  pending : List Instr
  port : Access
  layout : Layout
  table : BufferTable
  engine : CommitEngine
  reads : ReadPath
  bus : Bus
  slot : Slot
  service : ServicePort
  events : EventUnit
  control : ModeControl
  deriving DecidableEq, Repr

/-- What stops the machine. The spec lets no command stop the bridge, so there is no fault: every command answers a
next state (DESIGN CHOICE, log entry 2). -/
inductive Fault where
  deriving DecidableEq, Repr

/-- Why a command has no meaning here. -/
inductive Refusal where
  /-- Raised by an arm of `exec` for a command that is not modelled yet; no arm raises it. Safe: the run stops. -/
  | notModelled (mnemonic : String)
  deriving DecidableEq, Repr

/-! ### Reset -/

/-- R42: an image after a reset. -/
def Image.erased : Image := Vector.replicate 64 0xFF#8

/-- R47: an entry of the Device Status Table after a reset and after every installation. -/
def DeviceRecord.initial : DeviceRecord := { status := .ready, nacks := 0 }

/-- R72: the empty read-ahead queue. -/
def ReadAhead.empty : ReadAhead := { device := 0, first := 0, bytes := [] }

/-- R42, R47: the buffers and the Device Status Table of a reset. -/
def BufferTable.initial : BufferTable :=
  { buffers := Vector.replicate 8 { image := Image.erased, hold := none }, queue := [], flushWatch := false }

/-- R106, R124: the bus after a reset at which the lines show `scl` and `sda`; the record read stands at the arbiter
(R167). -/
def Bus.initial (scl sda : Bool) : Bus :=
  { status := .foreign, scl := scl, sda := sda, timer := 0#32
    lowStart := if scl then none else some { ms := 0#32, frac := 0 }
    idleHigh := if scl && sda then some { timer := 0#32, stamp := { ms := 0#32, frac := 0 } } else none
    heldData := if scl && !sda then some 0#32 else none
    freeAt := none, nextCheck := none, transaction := none, wire := none, awaitRise := false, clear := none
    watch := none, hostReads := [.recordRead], lastGranted := .direct, passCommit := 0, passDirect := 0 }

/-- R165: the Event Unit after a reset. -/
def EventUnit.initial : EventUnit :=
  { uptime := 0#32, fraction := 0, counts := Vector.replicate 16 0, mask := 0xFFFF#16, log := [], counter := 0#16
    overflow := 0 }

/-- The bridge at the end of a reset (R166) with the straps `bootA` and `bootW`, the lines at `scl` and `sda`, the
queue `pending`, and the levels of SCS#, SCK and PFW#, which a reset does not change (DESIGN CHOICE, log entry 3). -/
def State.afterReset (bootA : BitVec 3) (bootW scl sda : Bool) (pending : List Instr) (scs sck pfw : Bool) : State :=
  { pending := pending
    port := .idle
    layout := .empty
    table := .initial
    engine := { devices := Vector.replicate 8 .initial, requests := [] }
    reads := { stream := .closed, ahead := .empty, dropsAhead := false }
    bus := .initial scl sda
    slot := { state := .empty, outArea := Vector.replicate 32 0#8, inArea := Vector.replicate 32 0#8 }
    service := { frame := .idle, scs := scs, sck := sck }
    events := .initial
    control :=
      { mode := .starting, source := none, bootTarget := 0b1010#4 ++ bootA, bootBytes := if bootW then 2 else 1
        recordRead := some { retries := 0, firstNack := none, nextAttempt := none, failed := false }, pfw := pfw } }

/-- The bridge right after a reset with BOOTA[2:0], BOOTW and SCK low and every other input pin high (DESIGN CHOICE, log
entry 3), no command waiting. -/
def State.reset : State := State.afterReset 0#3 false true true [] true false true

end Sys2Proof.Machine
end

