-- ==== Sys2Proof/Machine/Ops.lean ====
section
/-! DEFINITION. The named operations that every block shares: times, the tables of eight, images and masks, the check
word, and the reading of layout entries. -/

namespace Sys2Proof.Machine

/-! ### Times (R157, R158) -/

/-- The time in steps of 100 µs. -/
def Stamp.steps (t : Stamp) : Nat := t.ms.toNat * Config.stepsPerMs + t.frac.val

/-- The span of the time base in steps of 100 µs. -/
def stampSpan : Nat := 2 ^ 32 * Config.stepsPerMs

/-- The time a count of steps stands for, modulo the span. -/
def Stamp.ofSteps (n : Nat) : Stamp := { ms := BitVec.ofNat 32 (n / 10), frac := Fin.ofNat 10 (n % 10) }

/-- The time `k` steps after `t`. -/
def Stamp.after (t : Stamp) (k : Nat) : Stamp := Stamp.ofSteps (t.steps + k)

/-- R158: the time elapsed from `t` to `now`, in steps of 100 µs, modulo the span. -/
def Stamp.elapsed (t now : Stamp) : Nat := (now.steps + stampSpan - t.steps) % stampSpan

/-- R158: the time elapsed from `t` to `now` in ms, modulo 2^32. -/
def elapsedMs (t now : Word) : Nat := (now - t).toNat

/-- The time a deadline stands at. -/
def Deadline.time (d : Deadline) : Stamp := d.since.after d.period

/-- R158: a deadline falls due when the time elapsed from its setting reaches its period. -/
def Deadline.reached (d : Deadline) (now : Stamp) : Bool := d.period ≤ d.since.elapsed now

/-- The present time to 100 µs. -/
def State.now (s : State) : Stamp := { ms := s.events.uptime, frac := s.events.fraction }

/-- The uptime in ms. -/
def State.uptime (s : State) : Word := s.events.uptime

/-- R106: where the 50 ns bus timer stands at the present step of the time base, both being counted from the end of the
reset. -/
def State.tickStart (s : State) : Word := BitVec.ofNat 32 (s.now.steps * Config.busStepsPerTick)

/-- The deadline `period` steps from now. -/
def State.deadline (s : State) (period : Nat) : Deadline := { since := s.now, period := period }

/-! ### Device entries (R1, R2, R8) -/

/-- R1: the capacity in bytes. -/
def DeviceEntry.capacity (e : DeviceEntry) : Nat := 256 * 2 ^ e.capacityCode

/-- R1: the page size in bytes. -/
def DeviceEntry.pageSize (e : DeviceEntry) : Nat := 8 * 2 ^ e.pageCode

/-- R2: the block size: 256^(address bytes). -/
def DeviceEntry.blockSize (e : DeviceEntry) : Nat := 256 ^ e.addressBytes

/-- R2: whether a target address lies in the device's target range. -/
def DeviceEntry.answersAt (e : DeviceEntry) (t : BitVec 7) : Bool :=
  e.target.toNat ≤ t.toNat && t.toNat ≤ e.target.toNat + 2 ^ e.blockBits - 1

/-- R8: the target address through which offset `d` is reached. -/
def DeviceEntry.targetOf (e : DeviceEntry) (d : Nat) : BitVec 7 := e.target + BitVec.ofNat 7 (d / e.blockSize)

/-- R8: the memory address bytes of offset `d`, high byte first. -/
def DeviceEntry.addressOf (e : DeviceEntry) (d : Nat) : List Byte :=
  let a := d % e.blockSize
  if e.addressBytes = 2 then [BitVec.ofNat 8 (a / 256), BitVec.ofNat 8 a] else [BitVec.ofNat 8 a]

/-- R8: the last offset of the block of offset `d`. -/
def DeviceEntry.lastOffset (e : DeviceEntry) (d : Nat) : Nat :=
  min ((d / e.blockSize + 1) * e.blockSize - 1) (e.capacity - 1)

/-- What an absent entry reads as; R47: it is not consulted (DESIGN CHOICE, log entry 31). -/
def DeviceEntry.absent : DeviceEntry :=
  { target := 0#7, addressBytes := 1, blockBits := 0, capacityCode := 0, pageCode := 0, kind := .cycled, cycleLimit := 1 }

/-- The Device Table entry of device `d`. -/
def State.device (s : State) (d : Index) : DeviceEntry := (s.layout.devices.get d).getD .absent

/-- R1: whether device `d` is IMMEDIATE. -/
def State.isImmediate (s : State) (d : Index) : Bool := (s.device d).kind == .immediate

/-! ### Window entries (R3, R4, R7) -/

/-- R3: the size in bytes. -/
def WindowEntry.size (w : WindowEntry) : Nat := 256 * 2 ^ w.sizeCode

/-- R7: whether the window covers host byte address `a`. -/
def WindowEntry.covers (w : WindowEntry) (a : Nat) : Bool :=
  w.hostBase * 256 ≤ a && a < w.hostBase * 256 + w.size

/-- R7: the device offset behind host byte address `a`. -/
def WindowEntry.offsetOf (w : WindowEntry) (a : Nat) : Nat := a - w.hostBase * 256 + w.deviceOffset * 256

/-- R7: whether the window reaches offset `o` of device `d`. -/
def WindowEntry.reaches (w : WindowEntry) (d : Index) (o : Nat) : Bool :=
  w.device == d && w.deviceOffset * 256 ≤ o && o < w.deviceOffset * 256 + w.size

/-- R4: the effective merge-fill attribute. -/
def WindowEntry.effectiveMergeFill (w : WindowEntry) : Bool := w.mergeFill && !w.checked

/-- The windows for which `f` holds: the lowest-numbered of them. -/
def Layout.findWindow (l : Layout) (f : WindowEntry → Bool) : Option Index :=
  allIndices.find? fun i => (l.windows.get i).any f

/-- R7: the window that reaches page `p` of device `d`. -/
def State.windowOf (s : State) (d : Index) (p : Nat) : Option Index :=
  s.layout.findWindow fun w => w.reaches d (p * (s.device d).pageSize)

/-- The entry of the window that reaches page `p` of device `d`. -/
def State.windowEntryOf (s : State) (d : Index) (p : Nat) : Option WindowEntry :=
  (s.windowOf d p).bind fun i => s.layout.windows.get i

/-- R17: whether page `p` of device `d` lies in a checked window. -/
def State.isChecked (s : State) (d : Index) (p : Nat) : Bool := (s.windowEntryOf d p).any (·.checked)

/-! ### Images and masks (R10, R17, R19) -/

/-- The byte at position `p` of an image. -/
def Image.byte (im : Image) (p : Nat) : Byte := im[p]?.getD 0xFF#8

/-- The image whose byte at position `p` is `f p`. -/
def Image.build (f : Nat → Byte) : Image := Vector.ofFn fun i : Fin 64 => f i.val

/-- The image with the bytes of `bs` placed at positions `first` onward. -/
def Image.place (im : Image) (first : Nat) (bs : List Byte) : Image :=
  Image.build fun p => if first ≤ p && p < first + bs.length then bs.getD (p - first) 0#8 else im.byte p

/-- The image with byte `bs[k]` at position `ps[k]`. -/
def Image.merge (im : Image) (ps : List Nat) (bs : List Byte) : Image :=
  (ps.zip bs).foldl (fun im pb => im.place pb.1 [pb.2]) im

/-- The bytes at positions 0 to `n` − 1. -/
def Image.firstBytes (im : Image) (n : Nat) : List Byte := (List.range n).map im.byte

/-- The mask of positions `first` to `first + n` − 1. -/
def Mask.span (first n : Nat) : Mask := Mask.of ((List.range n).map (first + ·))

/-- R10: the number of data positions of a page of `size` bytes. -/
def dataPositions (checked : Bool) (size : Nat) : Nat := if checked then size - 2 else size

/-- R10: whether position `p` is a check-byte position of a page of `size` bytes. -/
def isCheckPosition (size p : Nat) : Bool := p == size - 2 || p == size - 1

/-- The written positions of a page of `size` bytes, ascending. -/
def positionsOf (m : Mask) (size : Nat) : List Nat := (List.range size).filter m.has

/-- R29, R45: every data position is set in the written mask. -/
def pageComplete (checked : Bool) (size : Nat) (m : Mask) : Bool :=
  (List.range (dataPositions checked size)).all m.has

/-- R62: adds position `p` below runs that start above it. -/
def addToRuns (p : Nat) : List Run → List Run
  | [] => [{ first := p, count := 1 }]
  | r :: rs => if r.first = p + 1 then { first := p, count := r.count + 1 } :: rs else { first := p, count := 1 } :: r :: rs

/-- R62: one run for each maximal group of consecutive positions, ascending. -/
def runsOf (m : Mask) (size : Nat) : List Run := (positionsOf m size).foldr addToRuns []

/-- R59: the span from the lowest to the highest written position. -/
def writtenSpan (m : Mask) (size : Nat) : Run :=
  match positionsOf m size with
  | [] => { first := 0, count := 0 }
  | p :: ps => { first := p, count := ps.getLastD p + 1 - p }

/-- R45: some position between the lowest and the highest written position is not written. -/
def hasHoles (m : Mask) (size : Nat) : Bool := 1 < (runsOf m size).length

/-! ### The check word (R90) -/

/-- One bit of the check word: shift left, and add 1021h when the bit shifted out was 1. -/
def crcBit (c : Half) : Half := if c.getMsbD 0 then (c <<< 1) ^^^ 0x1021#16 else c <<< 1

/-- One byte of the check word. -/
def crcByte (c : Half) (b : Byte) : Half :=
  let c := c ^^^ (b.setWidth 16 <<< 8)
  crcBit (crcBit (crcBit (crcBit (crcBit (crcBit (crcBit (crcBit c)))))))

/-- R90: the check word of a list of bytes. -/
def checkWord (bs : List Byte) : Half := bs.foldl crcByte 0xFFFF#16

/-- The high byte of a 16-bit field. -/
def highByte (h : Half) : Byte := (h >>> 8).setWidth 8

/-- R104, R146: bit `k` of a byte in the order both serial interfaces send it, the most significant bit first. -/
def sentBit (b : Byte) (k : Nat) : Bool := b.getMsbD k

/-- R104, R146: the bits of a byte in the order both serial interfaces send it. -/
def sentBits (b : Byte) : List Bool := (List.range 8).map (sentBit b)

/-- R146: the byte whose bits arrive as `bits`, the most significant one first. -/
def arrivedByte (bits : List Bool) : Byte := bits.foldl (fun b bit => (b <<< 1) ||| (if bit then 1#8 else 0#8)) 0#8

/-- The low byte of a 16-bit field. -/
def lowByte (h : Half) : Byte := h.setWidth 8

/-- R90: the image of a page of `size` bytes with its check word placed. -/
def Image.placeWord (im : Image) (size : Nat) : Image :=
  let w := checkWord (im.firstBytes (size - 2))
  im.place (size - 2) [highByte w, lowByte w]

/-- R90: whether a page matches. -/
def pageMatches (bs : List Byte) : Bool :=
  let n := bs.length - 2
  let w := checkWord (bs.take n)
  bs.getD n 0#8 == highByte w && bs.getD (n + 1) 0#8 == lowByte w

/-- R96: the detail byte of a mismatch: 01h when every received byte was FFh. -/
def mismatchDetail (bs : List Byte) : Byte := if bs.all (· == 0xFF#8) then 0x01#8 else 0x00#8

/-! ### Buffer records (R17, R18) -/

/-- The state that a phase belongs to. -/
def Phase.state : Phase → BufferState
  | .gather _ => .gather
  | .sealed _ => .sealed
  | .fill _ => .fill
  | .commit _ _ => .commit
  | .cycle _ _ => .cycle
  | .verify _ => .verify
  | .clean _ => .clean
  | .held _ => .held

/-- R18: the state of a buffer. -/
def Buffer.state (b : Buffer) : BufferState := (b.hold.map (·.phase.state)).getD .free

/-- R18: the dirty states. -/
def BufferState.dirty : BufferState → Bool
  | .gather | .sealed | .fill | .commit | .cycle | .held => true
  | .free | .verify | .clean => false

/-- The states that R26 and R37 name: GATHER, SEALED, FILL, COMMIT, CYCLE and VERIFY. -/
def BufferState.working : BufferState → Bool
  | .gather | .sealed | .fill | .commit | .cycle | .verify => true
  | .free | .clean | .held => false

/-- R33: the dirty states short of HELD. -/
def BufferState.uncommitted : BufferState → Bool
  | .gather | .sealed | .fill | .commit | .cycle => true
  | .free | .verify | .clean | .held => false

/-- R43: the states in which a buffer occupies its device. -/
def BufferState.committing : BufferState → Bool
  | .fill | .commit | .cycle => true
  | .free | .gather | .sealed | .verify | .clean | .held => false

/-- Buffer `n`. -/
def State.buffer (s : State) (n : Index) : Buffer := s.table.buffers.get n

/-- The state of buffer `n`. -/
def State.bufferState (s : State) (n : Index) : BufferState := (s.buffer n).state

/-- The state with buffer `n` replaced. -/
def State.setBuffer (s : State) (n : Index) (b : Buffer) : State :=
  { s with table := { s.table with buffers := s.table.buffers.set n.val b n.isLt } }

/-- The state with the page fields of buffer `n` changed by `f`; a FREE buffer has none. -/
def State.updateHold (s : State) (n : Index) (f : PageHold → PageHold) : State :=
  s.setBuffer n { s.buffer n with hold := (s.buffer n).hold.map f }

/-- The state with the image of buffer `n` replaced. -/
def State.setImage (s : State) (n : Index) (im : Image) : State := s.setBuffer n { s.buffer n with image := im }

/-- The state with the commit queue replaced. -/
def State.setQueue (s : State) (q : List Index) : State := { s with table := { s.table with queue := q } }

/-- Whether buffer `n` is one of the buffers of page `p` of device `d` (R20). -/
def State.holdsPage (s : State) (n d : Index) (p : Nat) : Bool :=
  (s.buffer n).hold.any fun h => h.device == d && h.page == p

/-- R20: the buffers of a page. -/
def State.buffersOf (s : State) (d : Index) (p : Nat) : List Index := allIndices.filter fun n => s.holdsPage n d p

/-- The lowest-numbered buffer of a page in the state `st`. -/
def State.findOf (s : State) (d : Index) (p : Nat) (st : BufferState) : Option Index :=
  (s.buffersOf d p).find? fun n => s.bufferState n == st

/-- The device of the page buffer `n` holds. -/
def State.deviceOf (s : State) (n : Index) : Option Index := (s.buffer n).hold.map (·.device)

/-- Whether buffer `n` holds a page of device `d`. -/
def State.isOf (s : State) (d n : Index) : Bool := s.deviceOf n == some d

/-- The page size of the device of a page. -/
def State.pageSizeOf (s : State) (h : PageHold) : Nat := (s.device h.device).pageSize

/-- R8: the device offset at which the page of `h` starts. -/
def State.pageStartOf (s : State) (h : PageHold) : Nat := h.page * s.pageSizeOf h

/-- Among `ns`, the one for which `age` is greatest, the first on equal values (R158: the oldest). -/
def greatestBy (age : Index → Nat) : List Index → Option Index
  | [] => none
  | n :: ns =>
    match greatestBy age ns with
    | none => some n
    | some m => if age n < age m then some m else some n

/-- R158: the time elapsed since the last write of buffer `n`. -/
def State.writeAge (s : State) (n : Index) : Nat := ((s.buffer n).hold.map fun h => elapsedMs h.lastWrite s.uptime).getD 0

/-- R24, R158: the time elapsed since the last use of a CLEAN buffer. -/
def State.useAge (s : State) (n : Index) : Nat :=
  match (s.buffer n).hold.map PageHold.phase with
  | some (.clean t) => elapsedMs t s.uptime
  | _ => 0

/-! ### The Device Status Table (R47) -/

/-- The entry of device `d`. -/
def State.record (s : State) (d : Index) : DeviceRecord := s.engine.devices.get d

/-- The state with the entry of device `d` replaced. -/
def State.setRecord (s : State) (d : Index) (r : DeviceRecord) : State :=
  { s with engine := { s.engine with devices := s.engine.devices.set d.val r d.isLt } }

/-- Whether a status is READY. -/
def DeviceStatus.isReady : DeviceStatus → Bool
  | .ready => true
  | .cycling _ _ => false
  | .silent _ => false

/-- Whether a status is SILENT. -/
def DeviceStatus.isSilent : DeviceStatus → Bool
  | .silent _ => true
  | .ready => false
  | .cycling _ _ => false

/-- Whether device `d` is READY. -/
def State.isReady (s : State) (d : Index) : Bool := (s.record d).status.isReady

/-- Whether device `d` is SILENT. -/
def State.isSilent (s : State) (d : Index) : Bool := (s.record d).status.isSilent

/-- R47: the probe timer of a status, where it has one. -/
def DeviceStatus.probe : DeviceStatus → Option ProbeTimer
  | .ready => none
  | .cycling _ p => some p
  | .silent p => some p

/-- A status with its probe timer replaced. -/
def DeviceStatus.withProbe (p : ProbeTimer) : DeviceStatus → DeviceStatus
  | .ready => .ready
  | .cycling t _ => .cycling t p
  | .silent _ => .silent p

/-- The state with the status of device `d` replaced. -/
def State.setStatus (s : State) (d : Index) (st : DeviceStatus) : State := s.setRecord d { s.record d with status := st }

/-- The state with the consecutive-NACK count of device `d` replaced. -/
def State.setNacks (s : State) (d : Index) (k : Nat) : State := s.setRecord d { s.record d with nacks := k }

/-- R49: the target address of device `d` has been acknowledged; the count of an IMMEDIATE device becomes 0. -/
def State.ackDevice (s : State) (d : Index) : State := if s.isImmediate d then s.setNacks d 0 else s

/-- R47, R49, R53: the consecutive-NACK count rises by one, saturating at 255. -/
def State.countNack (s : State) (d : Index) : State := s.setNacks d (min Config.countLimit ((s.record d).nacks + 1))

/-- The count of device `d` as a detail byte. -/
def State.nackByte (s : State) (d : Index) : Byte := BitVec.ofNat 8 (s.record d).nacks

/-! ### Block updates -/

/-- The state with the bus record changed by `f`. -/
def State.setBus (s : State) (f : Bus → Bus) : State := { s with bus := f s.bus }

/-- The state with the stream record replaced. -/
def State.setStream (s : State) (st : Stream) : State := { s with reads := { s.reads with stream := st } }

/-- The state with the record of the Read Path replaced. -/
def State.setReads (s : State) (r : ReadPath) : State := { s with reads := r }

/-- The state with the read-ahead queue replaced. -/
def State.setAhead (s : State) (a : ReadAhead) : State := { s with reads := { s.reads with ahead := a } }

/-- The state with the request list replaced. -/
def State.setRequests (s : State) (rs : List Index) : State := { s with engine := { s.engine with requests := rs } }

/-- The state with the mode replaced. -/
def State.setMode (s : State) (m : Mode) : State := { s with control := { s.control with mode := m } }

/-- The state with the attempt record replaced. -/
def State.setRecordRead (s : State) (r : Option RecordRead) : State := { s with control := { s.control with recordRead := r } }

/-- Whether the mode is RELOADING, in whatever stage. -/
def Mode.isReloading : Mode → Bool
  | .reloading _ => true
  | .starting | .running | .flushing | .safe => false

/-- R88: the Mode Controller's close demand stands from RELOADING, FLUSHING and SAFE until the mode is RUNNING. -/
def Mode.demandsClose : Mode → Bool
  | .reloading _ | .flushing | .safe => true
  | .starting | .running => false

end Sys2Proof.Machine
end

