-- ==== Sys2Proof/Machine/Operands.lean ====
section
/-! DEFINITION. The Address Translator: the bytes an access touches, translation and classification (R7 to R12), the
validation of a layout record (R13 to R16), its reading (R175), and the fallback layout (R168). -/

namespace Sys2Proof.Machine

/-! ### Lanes (R9, R139) -/

/-- R9: the host addresses of the bytes an access touches, ascending. -/
def HostRequest.touched (r : HostRequest) : List Nat :=
  (if r.laneL then [2 * r.half.toNat] else []) ++ (if r.laneU then [2 * r.half.toNat + 1] else [])

/-- The host address of the first touched byte. -/
def HostRequest.firstAddress (r : HostRequest) : Nat := r.touched.headD (2 * r.half.toNat)

/-- R138: the bytes latched of HD for a write, one for each selected lane. -/
def latched (laneL laneU : Bool) (hd : BitVec 16) : List Byte :=
  (if laneL then [lowByte hd] else []) ++ (if laneU then [highByte hd] else [])

/-- R139, R143: HD for a read answered with the bytes `bs`: 00h on the half of an unselected lane. -/
def HostRequest.onLanes (r : HostRequest) (bs : List Byte) : BitVec 16 :=
  let low := if r.laneL then bs.getD 0 0#8 else 0#8
  let high := if r.laneU then bs.getD (if r.laneL then 1 else 0) 0#8 else 0#8
  high ++ low

/-- R177: the access code of a detail byte. -/
def HostRequest.accessCode (r : HostRequest) : Byte :=
  BitVec.ofNat 8 ((if r.write then 128 else 0) + (if r.laneU then 2 else 0) + (if r.laneL then 1 else 0))

/-! ### Translation and classification (R7, R8, R11, R12) -/

/-- R12: the translation record of the bytes at `addresses` in window `i`. -/
def Layout.translate (l : Layout) (i : Index) (w : WindowEntry) (addresses : List Nat) : Translation :=
  let e := (l.devices.get w.device).getD .absent
  let d := w.offsetOf (addresses.headD 0)
  let page := d / e.pageSize
  { window := i, device := w.device, kind := e.kind, pageSize := e.pageSize, page := page
    pageStart := page * e.pageSize
    positions := addresses.map fun a => w.offsetOf a - page * e.pageSize
    target := e.targetOf d, addressBytes := e.addressOf d, lastOffset := e.lastOffset d
    checked := w.checked, mergeFill := w.effectiveMergeFill, gatherTime := w.gatherTime }

/-- R11: the classification of an access, by the first of its four tests that holds. -/
def Layout.classify (l : Layout) (r : HostRequest) : Classification :=
  match l.findWindow fun w => w.covers r.firstAddress with
  | none => .unmapped
  | some i =>
    match l.windows.get i with
    | none => .unmapped
    | some w =>
      let t := l.translate i w r.touched
      if r.write && w.readOnly then .readOnly i
      else
        match t.positions.find? fun p => r.write && w.checked && isCheckPosition t.pageSize p with
        | some p => .checkBytes i p
        | none => .mapped t

/-! ### The layout record (R175) -/

/-- R13 to R16: why a record is rejected, with the offset or the indices that the reason names. -/
inductive Rejection where
  | recordUnreadable
  | badMarker
  | badVersion
  | badCount (offset : Nat)
  | badCrc
  | badPadding
  | badDevice (index : Nat)
  | badWindow (index : Nat)
  | overlap (lower higher : Nat)
  deriving DecidableEq, Repr

/-- R177: the detail byte of LAYOUT_REJECTED. -/
def Rejection.detail : Rejection → Byte
  | .recordUnreadable => 0x00#8
  | .badMarker => 0x10#8
  | .badVersion => 0x20#8
  | .badCount o => BitVec.ofNat 8 (0x30 + o)
  | .badCrc => 0x40#8
  | .badPadding => 0x50#8
  | .badDevice i => BitVec.ofNat 8 (0x60 + i)
  | .badWindow i => BitVec.ofNat 8 (0x70 + i)
  | .overlap i j => BitVec.ofNat 8 (0x80 + 16 * i + j)

/-- Byte `i` of a record as a number. -/
def recordByte (r : List Byte) (i : Nat) : Nat := (r.getD i 0#8).toNat

/-- Two bytes of a record, high byte first. -/
def recordPair (r : List Byte) (i : Nat) : Nat := recordByte r i * 256 + recordByte r (i + 1)

/-- R175: byte `k` of device record `i`. -/
def deviceByte (r : List Byte) (i k : Nat) : Nat := recordByte r (16 + 8 * i + k)

/-- R175: where window record `j` stands. -/
def windowAt (j : Nat) : Nat := 80 + 8 * j

/-- R175: byte `k` of window record `j`; the attributes of window 7 are all clear and its gather time is 10 ms, since
bytes 142 and 143 hold the CRC. -/
def windowByte (r : List Byte) (j k : Nat) : Nat :=
  if j = 7 ∧ k = 6 then 0 else if j = 7 ∧ k = 7 then 10 else recordByte r (windowAt j + k)

/-- R175: the Device Table entry in record `i`. -/
def readDevice (r : List Byte) (i : Nat) : DeviceEntry :=
  { target := BitVec.ofNat 7 (deviceByte r i 0), addressBytes := deviceByte r i 1, blockBits := deviceByte r i 2
    capacityCode := deviceByte r i 3, pageCode := deviceByte r i 4
    kind := if deviceByte r i 5 = 0 then .cycled else .immediate, cycleLimit := deviceByte r i 6 }

/-- R175: the Window Table entry in record `j`. -/
def readWindow (r : List Byte) (j : Nat) : WindowEntry :=
  { hostBase := recordPair r (windowAt j), sizeCode := windowByte r j 2, device := Fin.ofNat 8 (windowByte r j 3)
    deviceOffset := recordPair r (windowAt j + 4), readOnly := (windowByte r j 6).testBit 0
    checked := (windowByte r j 6).testBit 1, mergeFill := (windowByte r j 6).testBit 2, gatherTime := windowByte r j 7 }

/-- R175: the bus rate of a rate code. -/
def rateOf : Nat → BusRate
  | 0 => .kHz100
  | 1 => .kHz400
  | _ => .kHz1000

/-- R175: the parameters of a record. -/
def readParams (r : List Byte) : Params :=
  { rate := rateOf (recordByte r 5), poll := recordByte r 6, park := recordByte r 7, stretch := recordByte r 8
    retries := recordByte r 9, depth := recordByte r 10, reserve := recordByte r 11
    eventMask := BitVec.ofNat 16 (recordPair r 12) }

/-- R6, R175: the layout a record describes. -/
def readLayout (r : List Byte) : Layout :=
  { devices := Vector.ofFn fun i : Fin 8 => if i.val < recordByte r 3 then some (readDevice r i.val) else none
    windows := Vector.ofFn fun j : Fin 8 => if j.val < recordByte r 4 then some (readWindow r j.val) else none
    params := readParams r }

/-! ### Validation (R13 to R16) -/

/-- R13 check 3: the header fields with their offsets and ranges, in ascending offset. -/
def headerRanges : List (Nat × Nat × Nat) :=
  [(3, 1, 8), (4, 1, 8), (5, 0, 2), (6, 1, 16), (8, 1, 255), (9, 0, 7), (10, 0, 8), (11, 0, 4)]

/-- R13: the checks of the record as a whole. -/
def checkWhole (r : List Byte) : Option Rejection :=
  if recordByte r 0 ≠ 0x44 ∨ recordByte r 1 ≠ 0x56 then some .badMarker
  else if recordByte r 2 ≠ 1 then some .badVersion
  else
    match headerRanges.find? fun f => recordByte r f.1 < f.2.1 || f.2.2 < recordByte r f.1 with
    | some f => some (.badCount f.1)
    | none =>
      if (checkWord (r.take 142)).toNat ≠ recordPair r 142 then some .badCrc
      else if recordByte r 14 ≠ 0 ∨ recordByte r 15 ≠ 0 ∨ (List.range (recordByte r 3)).any (fun i => deviceByte r i 7 != 0)
        then some .badPadding
      else none

/-- R14 check 5: whether two target ranges share an address. -/
def DeviceEntry.clashes (e f : DeviceEntry) : Bool :=
  e.target.toNat < f.target.toNat + 2 ^ f.blockBits && f.target.toNat < e.target.toNat + 2 ^ e.blockBits

/-- R14: the five checks of device entry `i`. -/
def deviceOk (r : List Byte) (i : Nat) : Bool :=
  let e := readDevice r i
  let target := deviceByte r i 0
  (e.addressBytes == 1 || e.addressBytes == 2) && e.blockBits ≤ 3 && e.capacityCode ≤ 10 && e.pageCode ≤ 3
    && deviceByte r i 5 ≤ 1 && (e.kind == .immediate || (1 ≤ e.cycleLimit && e.cycleLimit ≤ 63))
    && 0x08 ≤ target && target + 2 ^ e.blockBits - 1 ≤ 0x77
    && target % 2 ^ e.blockBits == 0
    && e.capacity ≤ e.blockSize * 2 ^ e.blockBits
    && (List.range i).all fun k => !e.clashes (readDevice r k)

/-- R15: the six checks of window entry `j`. -/
def windowOk (r : List Byte) (j : Nat) : Bool :=
  let w := readWindow r j
  let e := readDevice r (windowByte r j 3)
  w.sizeCode ≤ 10 && windowByte r j 6 < 8
    && w.hostBase * 256 % w.size == 0
    && w.hostBase * 256 + w.size ≤ Config.hostUnits * 256
    && windowByte r j 3 < recordByte r 3
    && w.deviceOffset * 256 + w.size ≤ e.capacity
    && (!w.checked || 16 ≤ e.pageSize)

/-- Whether the ranges of `n` units from `a` and of `m` from `b` share one. -/
def rangesMeet (a n b m : Nat) : Bool := a < b + m && b < a + n

/-- R16: the two checks of a pair of windows. -/
def windowsClash (v w : WindowEntry) : Bool :=
  rangesMeet (v.hostBase * 256) v.size (w.hostBase * 256) w.size
    || (v.device == w.device && rangesMeet (v.deviceOffset * 256) v.size (w.deviceOffset * 256) w.size)

/-- R16: the pairs of windows in the order of the scan. -/
def windowPairs (n : Nat) : List (Nat × Nat) :=
  (List.range n).flatMap fun j => (List.range j).map fun i => (i, j)

/-- R13 to R16: the first failing check of a record, or its acceptance. -/
def validate (r : List Byte) : Option Rejection :=
  match checkWhole r with
  | some x => some x
  | none =>
    match (List.range (recordByte r 3)).find? fun i => !deviceOk r i with
    | some i => some (.badDevice i)
    | none =>
      match (List.range (recordByte r 4)).find? fun j => !windowOk r j with
      | some j => some (.badWindow j)
      | none =>
        match (windowPairs (recordByte r 4)).find? fun p => windowsClash (readWindow r p.1) (readWindow r p.2) with
        | some p => some (.overlap p.1 p.2)
        | none => none

/-! ### The fallback layout (R168) -/

/-- R168: device 0 of the fallback layout. -/
def fallbackDevice (target : BitVec 7) (addressBytes : Nat) : DeviceEntry :=
  { target := target, addressBytes := addressBytes, blockBits := 0, capacityCode := if addressBytes = 1 then 0 else 8
    pageCode := 0, kind := .cycled, cycleLimit := 10 }

/-- R168: window 0 of the fallback layout. -/
def fallbackWindow (addressBytes : Nat) : WindowEntry :=
  { hostBase := 0, sizeCode := if addressBytes = 1 then 0 else 8, device := 0, deviceOffset := 0, readOnly := false
    checked := false, mergeFill := false, gatherTime := 10 }

/-- R168: the fallback layout. -/
def fallbackLayout (target : BitVec 7) (addressBytes : Nat) : Layout :=
  { devices := (Vector.replicate 8 none).set 0 (some (fallbackDevice target addressBytes))
    windows := (Vector.replicate 8 none).set 0 (some (fallbackWindow addressBytes))
    params := .fallback }

end Sys2Proof.Machine
end

