-- ==== Sys2Proof/Machine/Flags.lean ====
section
/-! DEFINITION. The Event Unit's operations: event counts, the enable mask and IRQ#, the fault log (R159 to R163). -/

namespace Sys2Proof.Machine

/-- R159: the number of an event kind. -/
def EventKind.number : EventKind → Fin 16
  | .writeRefused => 0
  | .readFailed => 1
  | .bufferHeld => 2
  | .deviceSilent => 3
  | .deviceRevived => 4
  | .checkMismatch => 5
  | .arbitrationLost => 6
  | .stretchTimeout => 7
  | .busStuck => 8
  | .busRecovered => 9
  | .sequenceFinished => 10
  | .flushDone => 11
  | .safeReached => 12
  | .layoutLoaded => 13
  | .layoutRejected => 14
  | .logOverflow => 15

/-- The count of kind number `k`. -/
def EventUnit.count (e : EventUnit) (k : Fin 16) : Nat := e.counts.get k

/-- R159: an arrival raises the count of its kind, saturating at 255. -/
def EventUnit.arrive (e : EventUnit) (k : EventKind) : EventUnit :=
  { e with counts := e.counts.set k.number.val (min Config.countLimit (e.count k.number + 1)) k.number.isLt }

/-- R159: one event is counted. -/
def State.countEvent (s : State) (k : EventKind) : State := { s with events := s.events.arrive k }

/-- R162, R163: a fault is appended with the next fault number, or, the log being full, dropped, counted as an
overflow and as LOG_OVERFLOW. -/
def EventUnit.append (e : EventUnit) (f : FaultInfo) : EventUnit :=
  if e.log.length < Config.logDepth then
    { e with log := e.log ++ [{ number := e.counter, time := e.uptime, info := f }], counter := e.counter + 1#16 }
  else
    { e with overflow := min Config.countLimit (e.overflow + 1) }.arrive .logOverflow

/-- R162, R163: one fault is logged. -/
def State.logFault (s : State) (f : FaultInfo) : State := { s with events := s.events.append f }

/-- R160: each count is reduced by its figure, at most to 0. -/
def EventUnit.acknowledge (e : EventUnit) (figures : List Byte) : EventUnit :=
  { e with counts := Vector.ofFn fun k : Fin 16 => e.count k - (figures.getD k.val 0#8).toNat }

/-- R161: IRQ# is asserted exactly while some enabled event kind has a nonzero count. -/
def EventUnit.irq (e : EventUnit) : Bool := (List.finRange 16).any fun k => e.mask.getLsbD k.val && e.count k != 0

/-- R161: whether the IRQ# pin is asserted (driven low). -/
def State.irqAsserted (s : State) : Bool := s.events.irq

/-- R157: the time base advances by one step, and the bus timer comes to stand where that step begins (R106; DESIGN
CHOICE, log entry 4). -/
def State.tick (s : State) : State :=
  let next : Stamp := s.now.after 1
  let s := { s with events := { s.events with uptime := next.ms, fraction := next.frac } }
  s.setBus fun b => { b with timer := s.tickStart }

end Sys2Proof.Machine
end

