-- ==== Sys2Proof/Machine/Port.lean ====
section
/-! DEFINITION. The Host Memory Port's answers and pins (R139, R143, R144). -/

namespace Sys2Proof.Machine

/-- R143: the access in progress is answered. -/
def State.answer (s : State) (a : HostRequest → Answer) : State :=
  match s.port with
  | .waiting req _ => { s with port := .answered req (a req) }
  | .idle | .answered _ _ => s

/-- R143: a read is answered with the bytes of its selected lanes. -/
def State.serveRead (s : State) (bs : List Byte) : State :=
  s.answer fun req => { herr := false, hd := some (req.onLanes bs) }

/-- R142: a write is accepted. -/
def State.acceptWrite (s : State) : State := s.answer fun _ => { herr := false, hd := none }

/-- R143: what the port shows for a refusal. -/
def refusalAnswer (req : HostRequest) : Answer := { herr := true, hd := if req.write then none else some 0#16 }

/-- R144: the access in progress is refused: one event is counted, at most one fault logged, HERR answered. -/
def State.refuse (s : State) (fault : Option FaultInfo) : State :=
  match s.port with
  | .waiting req _ =>
    let s := s.countEvent (if req.write then .writeRefused else .readFailed)
    let s := match fault with
      | some f => s.logFault f
      | none => s
    s.answer refusalAnswer
  | .idle | .answered _ _ => s

/-- The state with the hold of a WAITING access replaced. -/
def State.setHold (s : State) (h : Hold) : State :=
  match s.port with
  | .waiting req _ => { s with port := .waiting req h }
  | .idle | .answered _ _ => s

/-- R70: the read record, if the Read Path holds one. -/
def State.readRecord (s : State) : Option ReadRecord :=
  match s.port with
  | .waiting _ (.readPath r) => some r
  | .idle | .waiting _ .mode | .waiting _ (.buffers _) | .answered _ _ => none

/-- The state with the read record replaced. -/
def State.setRead (s : State) (r : ReadRecord) : State := s.setHold (.readPath r)

/-- The first address of the access in progress. -/
def State.accessAddress (s : State) : Nat :=
  match s.port with
  | .waiting req _ | .answered req _ => req.firstAddress
  | .idle => 0

/-- R143: the HRDY pin. -/
def State.hrdy (s : State) : Bool :=
  match s.port with
  | .answered _ _ => true
  | .idle | .waiting _ _ => false

/-- R143: the HERR pin. -/
def State.herr (s : State) : Bool :=
  match s.port with
  | .answered _ a => a.herr
  | .idle | .waiting _ _ => false

/-- R143: HD[15:0] where the port drives it; `none` while it is released. -/
def State.hdOut (s : State) : Option (BitVec 16) :=
  match s.port with
  | .answered _ a => a.hd
  | .idle | .waiting _ _ => none

/-- R166: whether the SAFE pin is asserted. -/
def State.safeAsserted (s : State) : Bool := s.control.mode == .safe

end Sys2Proof.Machine
end

