-- ==== Sys2Proof/Machine/Buffers.lean ====
section
/-! DEFINITION. The Page Buffer Table's own operations: generations, freeing, holding, opening, merging, forwarding
(R19 to R24, R33 to R36). -/

namespace Sys2Proof.Machine

/-- R20: the generation a buffer taken for a page receives. -/
def State.nextGeneration (s : State) (d : Index) (p : Nat) : Nat :=
  (s.buffersOf d p).foldl (fun g n => max g (((s.buffer n).hold.map (·.generation + 1)).getD 0)) 0

/-- R20: a buffer's generation closes up when a buffer of its page with a lower generation becomes FREE. -/
def PageHold.closeUp (gone h : PageHold) : PageHold :=
  if h.device = gone.device ∧ h.page = gone.page ∧ gone.generation < h.generation then
    { h with generation := h.generation - 1 }
  else h

/-- R34: buffer `n` becomes FREE: its image stays, every other field becomes absent, generations close up. -/
def State.freeBuffer (s : State) (n : Index) : State :=
  match (s.buffer n).hold with
  | none => s
  | some gone =>
    { s with table := { s.table with buffers := Vector.ofFn fun m : Fin 8 =>
        if m = n then { s.buffer m with hold := none }
        else { s.buffer m with hold := (s.buffer m).hold.map gone.closeUp } } }

/-- Buffer `n` becomes FREE if it stands in the state `st`. -/
def State.freeIf (s : State) (st : BufferState) (n : Index) : State :=
  if s.bufferState n = st then s.freeBuffer n else s

/-- R41: the clean release: every CLEAN buffer becomes FREE. -/
def State.cleanRelease (s : State) : State := allIndices.foldl (fun s n => s.freeIf .clean n) s

/-- R33: what entry to HELD makes of the page fields. -/
def PageHold.toHeld (cause : HoldCause) (h : PageHold) : PageHold :=
  { h with phase := .held cause, source := if cause = .checkMismatch then h.written else h.source }

/-- R33: buffer `n` enters HELD from a dirty state; it leaves the queue and the request list, and BUFFER_HELD is
counted. -/
def State.holdBuffer (s : State) (cause : HoldCause) (n : Index) : State :=
  if (s.bufferState n).uncommitted then
    let s := s.updateHold n (PageHold.toHeld cause)
    let s := s.setQueue (s.table.queue.filter (· != n))
    let s := s.setRequests (s.engine.requests.filter (· != n))
    s.countEvent .bufferHeld
  else s

/-- R23, R37: buffer `n` is taken for page `p` of device `d` into the phase `ph`: image all FFh, masks clear. -/
def State.openBuffer (s : State) (n d : Index) (p : Nat) (ph : Phase) : State :=
  s.setBuffer n
    { image := Image.erased
      hold := some { device := d, page := p, generation := s.nextGeneration d p, written := 0#64, source := 0#64
                     lastWrite := s.uptime, retries := 0, phase := ph } }

/-- R21: the merge of a write into the GATHER buffer `n`. -/
def State.mergeWrite (s : State) (n : Index) (t : Translation) (data : List Byte) : State :=
  let s := s.setImage n ((s.buffer n).image.merge t.positions data)
  s.updateHold n fun h =>
    { h with written := h.written ||| Mask.of t.positions, source := h.source ||| Mask.of t.positions
             lastWrite := s.uptime, phase := .gather (s.uptime + BitVec.ofNat 32 t.gatherTime) }

/-- R22 step 1: a CLEAN buffer converts in place to GATHER with every used position written. -/
def State.convert (s : State) (n : Index) (t : Translation) : State :=
  s.updateHold n fun h =>
    { h with written := Mask.span 0 t.pageSize, retries := 0
             phase := .gather (s.uptime + BitVec.ofNat 32 t.gatherTime) }

/-- The lowest-numbered buffer in the state `st`. -/
def State.lowest (s : State) (st : BufferState) : Option Index := allIndices.find? fun n => s.bufferState n == st

/-- R22 step 4: the CLEAN buffer that eviction chooses. -/
def State.evictable (s : State) : Option Index :=
  greatestBy s.useAge (allIndices.filter fun n => s.bufferState n == .clean)

/-- R22 steps 3 and 4, R37: a FREE buffer, or a CLEAN one evicted; absent when there is neither. -/
def State.obtain (s : State) : Option (Index × State) :=
  match s.lowest .free with
  | some n => some (n, s)
  | none => s.evictable.map fun n => (n, s.freeBuffer n)

/-- R35: the dirty buffer that supplies a byte: the newest whose source mask has the position. -/
def State.dirtySource (s : State) (d : Index) (p pos : Nat) : Option Index :=
  greatestBy (fun n => ((s.buffer n).hold.map (·.generation)).getD 0)
    ((s.buffersOf d p).filter fun n =>
      (s.bufferState n).dirty && (s.buffer n).hold.any fun h => h.source.has pos)

/-- R35: the CLEAN buffer that supplies a byte no dirty buffer holds. -/
def State.cleanSource (s : State) (d : Index) (p pos : Nat) : Option Index :=
  (s.buffersOf d p).find? fun n =>
    s.bufferState n == .clean && (s.buffer n).hold.any fun h => h.source.has pos

/-- R24: a byte is taken from a CLEAN buffer. -/
def State.touchClean (s : State) (n : Index) : State := s.updateHold n fun h => { h with phase := .clean s.uptime }

/-- R35: the forwarding lookup of one byte; it changes nothing but the last-use time of a CLEAN buffer. -/
def State.forward (s : State) (d : Index) (p pos : Nat) : Option (Byte × State) :=
  match s.dirtySource d p pos with
  | some n => some ((s.buffer n).image.byte pos, s)
  | none => (s.cleanSource d p pos).map fun n => ((s.buffer n).image.byte pos, s.touchClean n)

/-- R26, R37: no buffer is FREE or CLEAN. -/
def State.noneSpare (s : State) : Bool :=
  allIndices.all fun n => s.bufferState n != .free && s.bufferState n != .clean

/-- R26, R37: the conditions of NO_BUFFER: every buffer is HELD, or none is in GATHER, SEALED, FILL, COMMIT, CYCLE or
VERIFY. -/
def State.noBufferToCome (s : State) : Bool :=
  allIndices.all (fun n => s.bufferState n == .held) || allIndices.all fun n => !(s.bufferState n).working

/-- The number of HELD buffers. -/
def State.heldCount (s : State) : Nat := (allIndices.filter fun n => s.bufferState n == .held).length

end Sys2Proof.Machine
end

