-- ==== Sys2Proof/Machine/Commit.lean ====
section
/-! DEFINITION. The Commit Engine's shared operations: selection and the paths at taking (R43 to R46, R62, R99), the
request list, seals (R30), the reserve (R27), a device entering CYCLING (R48, R50). -/

namespace Sys2Proof.Machine

/-- R46: buffer `n`'s transaction joins the tail of the request list, unless its device is not READY. -/
def State.joinRequest (s : State) (n : Index) : State :=
  if (s.deviceOf n).any s.isReady then s.setRequests (s.engine.requests ++ [n]) else s

/-- R43: whether the queued buffer `n` meets the four conditions. -/
def State.admits (s : State) (n : Index) : Bool :=
  match (s.buffer n).hold with
  | none => false
  | some h =>
    s.bufferState n == .sealed
      && (s.table.queue.takeWhile (· != n)).all (fun m => s.deviceOf m != some h.device)
      && s.isReady h.device
      && allIndices.all (fun m => !(s.isOf h.device m && (s.bufferState m).committing))
      && (s.buffersOf h.device h.page).all fun m =>
          !(s.bufferState m == .held && (s.buffer m).hold.any fun o => o.generation < h.generation)

/-- R45, R62, R99: the image, the source mask and the phase of a buffer at its taking. -/
def State.takenAs (s : State) (im : Image) (h : PageHold) (forced : Bool) : Buffer :=
  let size := s.pageSizeOf h
  let fill : Buffer := { image := im, hold := some { h with phase := .fill forced } }
  match s.windowEntryOf h.device h.page with
  | some w =>
    if w.checked then
      if pageComplete true size h.written then
        { image := im.placeWord size
          hold := some { h with source := h.source ||| Mask.span (size - 2) 2
                                phase := .commit forced [{ first := 0, count := size }] } }
      else fill
    else if w.effectiveMergeFill && hasHoles h.written size then fill
    else { image := im, hold := some { h with phase := .commit forced (runsOf h.written size) } }
  | none => { image := im, hold := some { h with phase := .commit forced (runsOf h.written size) } }

/-- R44, R45: the Commit Engine takes the queued buffer `n`, and its first transaction joins the request list. -/
def State.takeBuffer (s : State) (n : Index) : State :=
  match (s.buffer n).hold with
  | some h =>
    match h.phase with
    | .sealed forced =>
      let s := s.setBuffer n (s.takenAs (s.buffer n).image h forced)
      let s := s.setQueue (s.table.queue.filter (· != n))
      s.joinRequest n
    | _ => s
  | none => s

/-- R44: one selection: the queue is examined from head to tail. -/
def State.select (s : State) : State :=
  s.table.queue.foldl (fun s n => if s.admits n then s.takeBuffer n else s) s

/-- R30: a GATHER buffer becomes SEALED at the tail of the queue; any other buffer is left as it is. -/
def State.enqueue (s : State) (n : Index) : State :=
  if s.bufferState n = .gather then
    let s := s.updateHold n fun h => { h with phase := .sealed false }
    s.setQueue (s.table.queue ++ [n])
  else s

/-- R30, R44: a seal and the selection it causes. -/
def State.sealBuffer (s : State) (n : Index) : State :=
  if s.bufferState n = .gather then (s.enqueue n).select else s

/-- The GATHER buffers. -/
def State.gathering (s : State) : List Index := allIndices.filter fun n => s.bufferState n == .gather

/-- R25, R27: the GATHER buffer with the oldest last-write time, other than `except`. -/
def State.oldestGather (s : State) (except : Option Index) : Option Index :=
  greatestBy s.writeAge (s.gathering.filter fun n => some n != except)

/-- R25, R27: the oldest GATHER buffer other than `except` is sealed, if there is one. -/
def State.sealOldest (s : State) (except : Option Index) : State :=
  match s.oldestGather except with
  | some n => s.sealBuffer n
  | none => s

/-- R27: the reserve test after an allocation. -/
def State.reserveSeal (s : State) (except : Option Index) : State :=
  let spare := (allIndices.filter fun n => s.bufferState n == .free || s.bufferState n == .clean).length
  if spare < s.layout.params.reserve then s.sealOldest except else s

/-- R38, R158: places `n` among buffers ordered by the age of their last write, oldest first, behind equal ages. -/
def insertByAge (age : Index → Nat) (n : Index) : List Index → List Index
  | [] => [n]
  | m :: ms => if age n ≤ age m then m :: insertByAge age n ms else n :: m :: ms

/-- R38: the order in which FLUSH and seal all append the GATHER buffers. -/
def State.sealOrder (s : State) : List Index := s.gathering.foldl (fun ns n => insertByAge s.writeAge n ns) []

/-- R38, R41: seal all: every GATHER buffer is sealed, in ascending order of last-write time. -/
def State.sealAll (s : State) : State := s.sealOrder.foldl State.sealBuffer s

/-- R71, R75, R94: the request of a VERIFY or of a stream open whose device leaves READY is withdrawn; with a read present
its wait becomes DEVICE (of a stream open DEDUCED, log entry 27). -/
def State.deferReads (s : State) (d : Index) : State :=
  let waits := fun r : ReadRecord =>
    r.wait == .bus && (r.verifyBuffer.any (s.isOf d) || (!r.translation.checked && r.translation.device == d))
  let s' := s.setBus fun b => { b with hostReads := b.hostReads.filter fun q =>
    match q with
    | .verify n => !s.isOf d n
    | .streamOpen e _ => e != d
    | .recordRead => true }
  match s.readRecord with
  | some r => if waits r then s'.setRead { r with wait := .device } else s'
  | none => s'

/-- R48, R50: device `d` enters CYCLING now: times and count as R48 gives, its request-list entry (R46) and its host-read
requests are deferred. -/
def State.enterCycling (s : State) (d : Index) : State :=
  let s := s.setRecord d
    { status := .cycling s.now { next := s.deadline s.layout.params.poll, due := false }, nacks := 0 }
  let s := s.setRequests (s.engine.requests.filter fun n => !s.isOf d n)
  s.deferReads d

/-- R48: a transaction met an address NACK of the CYCLED device `d`. -/
def State.busyNack (s : State) (d : Index) : State := if s.isReady d then s.enterCycling d else s

/-- R67: the place, the window and the number of the buffer a commit fault names. -/
def State.bufferFault (s : State) (kind : FaultKind) (detail : Byte) (d : Index) (n : Option Index) : FaultInfo :=
  let h := n.bind fun n => (s.buffer n).hold
  { kind := kind, detail := detail, device := some d, window := h.bind fun h => s.windowOf h.device h.page
    buffer := n, place := h.map s.pageStartOf }

end Sys2Proof.Machine
end

