-- ==== Sys2Proof/Machine/Arbiter.lean ====
section
/-! DEFINITION. The requests waiting at the bus arbiter (R115), the close demand (R118), the close of a transaction
(R108, R114) and the phase of the transaction in progress (R109). -/

namespace Sys2Proof.Machine

/-- Whether the bus is STUCK. -/
def State.isStuck (s : State) : Bool := s.bus.status == .stuck

/-- R46, R58: the head of the request list is presented while the bus is not STUCK. -/
def State.commitWaits (s : State) : Bool := !s.isStuck && !s.engine.requests.isEmpty

/-- R51: whether the probe of device `d` is due. -/
def State.probeDue (s : State) (d : Index) : Bool := (s.record d).status.probe.any (·.due)

/-- R51, R54: a probe request is presented while at least one probe is due and the bus is not STUCK. -/
def State.probeWaits (s : State) : Bool := !s.isStuck && allIndices.any s.probeDue

/-- R126: a direct request is presented while the slot is WAITING. -/
def State.directWaits (s : State) : Bool :=
  match s.slot.state with
  | .waiting _ _ _ _ => true
  | .empty | .running _ _ _ _ _ _ _ | .finished _ _ _ _ => false

/-- R118: whether a request other than a stream open of the current read waits. -/
def State.otherWaits (s : State) : Bool :=
  s.bus.hostReads.any (fun q => match q with
    | .streamOpen _ _ => false
    | .verify _ | .recordRead => true)
    || s.probeWaits || s.commitWaits || s.directWaits

/-- R115: a host-read request is presented behind those that wait. -/
def State.present (s : State) (q : HostReadRequest) : State := s.setBus fun b => { b with hostReads := b.hostReads ++ [q] }

/-- R115: the host-read requests that `q` holds of are withdrawn. -/
def State.withdraw (s : State) (q : HostReadRequest → Bool) : State :=
  s.setBus fun b => { b with hostReads := b.hostReads.filter fun r => !q r }

/-- Whether a request is a stream open. -/
def HostReadRequest.isStreamOpen : HostReadRequest → Bool
  | .streamOpen _ _ => true
  | .verify _ | .recordRead => false

/-- R104: the bus-free time of a rate, in steps of 50 ns: 4.7 µs, 1.3 µs, 0.5 µs. -/
def BusRate.freeSteps : BusRate → Nat
  | .kHz100 => 94
  | .kHz400 => 26
  | .kHz1000 => 10

/-- R104: half a bit time of a rate, in steps of 50 ns: 5 µs, 1.25 µs, 0.5 µs. -/
def BusRate.halfSteps : BusRate → Nat
  | .kHz100 => 100
  | .kHz400 => 25
  | .kHz1000 => 10

/-- R104, R108: a close has been sent now: both lines are high and the free deadline runs. -/
def Bus.closed (b : Bus) (rate : BusRate) (now : Stamp) : Bus :=
  { b with transaction := none, wire := none, scl := true, sda := true, lowStart := none
           idleHigh := some { timer := b.timer, stamp := now }, heldData := none
           freeAt := some (b.timer + BitVec.ofNat 32 rate.freeSteps) }

/-- R114: the transaction in progress ends with its close; its record is discarded. -/
def State.closeTransaction (s : State) : State := s.setBus fun b => b.closed s.layout.params.rate s.now

/-- R78, R104, R120: the close is sent from now on, after a received byte that ends a stream or the rise of SCL after a stretch
timeout: the two half bits of its shape run, and the free deadline is that of their end (DESIGN CHOICE, log entry 47). -/
def Bus.sendsClose (b : Bus) (rate : BusRate) : Bus :=
  { b with transaction := none, wire := some { half := .closeLow none, since := b.timer }, scl := true, sda := true
           lowStart := none, idleHigh := none, heldData := none
           freeAt := some (b.timer + BitVec.ofNat 32 (2 * rate.halfSteps + rate.freeSteps)) }

/-- R78, R82: the close of the stream is sent. -/
def State.sendClose (s : State) : State := s.setBus fun b => b.sendsClose s.layout.params.rate

/-- The half bit of which SCL is released that follows a low one; another party that holds SCL lengthens it (R104, R120). -/
def HalfBit.released : HalfBit → HalfBit
  | .reopenLow => .reopenHigh
  | .closeLow refused => .closeHigh refused
  | .clockLow bits => .clockHigh bits
  | .pulseLow n => .pulseHigh n
  | .open => .open
  | .reopenHigh => .reopenHigh
  | .reopenFall => .reopenFall
  | .closeHigh refused => .closeHigh refused
  | .clockHigh bits => .clockHigh bits
  | .pulseHigh n => .pulseHigh n

/-- R104, R109, R112: the first half bit of a phase; a park has none. -/
def BusPhase.firstHalf : BusPhase → Option HalfBit
  | .open => some .open
  | .reopen => some .reopenLow
  | .close => some (.closeLow none)
  | .address | .send | .receive => some (.clockLow [])
  | .park => none

/-- R104, R121: the half bit in progress: where none has begun, the first one of a bus clear or of the phase of the
transaction on the bus, which begins now. -/
def Bus.bit (b : Bus) : Option Wire :=
  match b.wire with
  | some w => some w
  | none =>
    let first := if b.clear.isSome then some (.pulseLow 1)
      else if b.status == .owned then b.transaction.bind fun t => t.phase.firstHalf else none
    first.map fun h => { half := h, since := b.timer }

/-- R110: what a NACK has refused, while the engine sends the close that follows; no other outcome can come there but a
stretch timeout. -/
def Bus.refused (b : Bus) : Option Refused :=
  b.wire.bind fun w => match w.half with
    | .closeLow refused | .closeHigh refused => refused
    | .open | .reopenLow | .reopenHigh | .reopenFall | .clockLow _ | .clockHigh _ | .pulseLow _ | .pulseHigh _ => none

/-- The job of the transaction in progress. -/
def State.job (s : State) : Option Job := s.bus.transaction.map (·.job)

/-- Whether the transaction of `j` is on the bus, with SCL not held by another party, no bus clear before it, and no byte of it
refused. -/
def State.onBus (s : State) (j : Job) : Bool :=
  s.bus.status == .owned && s.job == some j && s.bus.lowStart.isNone && s.bus.refused.isNone

/-- The transaction in progress moved on by `f`: a half bit of its next phase or byte is to begin. -/
def State.setTransaction (s : State) (f : Transaction → Transaction) : State :=
  s.setBus fun b => { b with transaction := b.transaction.map f, wire := none }

/-- R109: the phase of the transaction in progress becomes `p`. -/
def State.setPhase (s : State) (p : BusPhase) : State := s.setTransaction fun t => { t with phase := p }

/-- R112: the bridge releases SCL and clocks the first bit of the next byte. -/
def Bus.resumes (b : Bus) : Bus :=
  { b with transaction := b.transaction.map fun t => { t with phase := .receive }
           wire := if b.status = .owned then b.transaction.map fun _ => { half := .clockHigh [], since := b.timer } else none }

/-- R79, R80, R81, R112: a parked stream leaves its park. -/
def State.resume (s : State) : State := s.setBus Bus.resumes

/-- R109: `n` more bytes have followed the current address byte. -/
def State.countBytes (s : State) (n : Nat) : State := s.setTransaction fun t => { t with byteIndex := t.byteIndex + n }

/-- R77, R109: the address byte of the re-open has been acknowledged: the bytes after it are counted anew. -/
def State.startReception (s : State) : State :=
  s.setTransaction fun t => { t with phase := .receive, read := true, byteIndex := 0, toSend := [] }

/-- R109, R110: the phase of the transaction in progress, CLOSE in the close that follows a refused byte. -/
def State.phase (s : State) : Option BusPhase :=
  s.bus.transaction.map fun t => if s.bus.refused.isSome then .close else t.phase

/-- R104: the address byte: the target address and the direction bit, 0 for write and 1 for read. -/
def Transaction.addressByte (t : Transaction) : Byte := t.target ++ (if t.read then 1#1 else 0#1)

/-- R111: the bits of the byte in progress that the bridge has received. -/
def State.sampledBits (s : State) : List Bool :=
  match s.bus.transaction, s.bus.wire with
  | some t, some w =>
    match w.half with
    | .clockLow bits | .clockHigh bits => if t.phase = .receive then bits.take 8 else []
    | .open | .reopenLow | .reopenHigh | .reopenFall | .closeLow _ | .closeHigh _ | .pulseLow _ | .pulseHigh _ => []
  | _, _ => []

/-- R111: the bits received of the byte in progress are the first ones of the first of `bytes`
(DESIGN CHOICE, log entry 20). -/
def State.fitsSampled (s : State) (bytes : List Byte) : Bool :=
  match bytes with
  | [] => true
  | v :: _ => s.sampledBits.isPrefixOf (sentBits v)

/-- R111: the bytes of the reception in progress that have been handed over already. -/
def State.handed (s : State) : List Byte := (s.bus.transaction.map (·.received)).getD []

/-- The bytes that the transaction in progress has yet to send after its address byte. -/
def State.unsent (s : State) : Nat := (s.bus.transaction.map (·.toSend.length)).getD 0

/-- R110: an address NACK can still end the transaction: on its open, or on its re-open (`reopened`). -/
def Transaction.awaitsAddress (t : Transaction) (reopened : Bool) : Bool :=
  match t.phase with
  | .open => true
  | .address => !t.read || reopened
  | .send | .reopen => reopened
  | .receive | .park | .close => false

/-- R110: a NACK of the byte of index `i` after the address byte in write direction can still come. -/
def Transaction.awaitsByte (t : Transaction) (i : Nat) : Bool :=
  match t.phase with
  | .open => true
  | .address => !t.read
  | .send => decide (t.byteIndex ≤ i)
  | .reopen | .receive | .park | .close => false

/-- R110: an address NACK can still end the transaction in progress. -/
def State.awaitsAddress (s : State) (reopened : Bool) : Bool := s.bus.transaction.any fun t => t.awaitsAddress reopened

/-- R110: a NACK of byte `i` can still end the transaction in progress. -/
def State.awaitsByte (s : State) (i : Nat) : Bool := s.bus.transaction.any fun t => t.awaitsByte i

end Sys2Proof.Machine
end

