-- ==== Sys2Proof/Machine/Sequencer.lean ====
section
/-! DEFINITION. The Direct Sequencer's shared operations: validation of a submission (R129, R130, R178), the steps of
a running sequence (R131), its ends and its abort (R132 to R136). -/

namespace Sys2Proof.Machine

/-! ### Steps and validation -/

/-- R178: the step of two bytes; `none` for a step of none of the four kinds, and for n outside 1 to 32. -/
def readStep (a b : Byte) : Option SeqStep :=
  let n := b.toNat
  if a = 0x00#8 then some (.open ((b >>> 1).setWidth 7) (b.getLsbD 0))
  else if a = 0xC0#8 then if b = 0#8 then some .close else none
  else if n = 0 ∨ 32 < n then none
  else if a = 0x40#8 then some (.send n false)
  else if a = 0x41#8 then some (.send n true)
  else if a = 0x80#8 then some (.receive n false)
  else if a = 0x81#8 then some (.receive n true)
  else none

/-- R129 check 2: the steps of pairs of bytes, if each is of one of the four kinds. -/
def readSteps : List Byte → Option (List SeqStep)
  | [] => some []
  | [_] => none
  | a :: b :: rest => (readStep a b).bind fun st => (readSteps rest).map fun sts => st :: sts

/-- Whether a step is OPEN. -/
def SeqStep.isOpen : SeqStep → Bool
  | .open _ _ => true
  | .send _ _ | .receive _ _ | .close => false

/-- Whether a step is CLOSE. -/
def SeqStep.isClose : SeqStep → Bool
  | .close => true
  | .open _ _ | .send _ _ | .receive _ _ => false

/-- R127: the bytes a step sends. -/
def SeqStep.sends : SeqStep → Nat
  | .send n _ => n
  | .open _ _ | .receive _ _ | .close => 0

/-- R127: the bytes a step receives. -/
def SeqStep.receives : SeqStep → Nat
  | .receive n _ => n
  | .open _ _ | .send _ _ | .close => 0

/-- R129 check 3: step 1 is OPEN, the last step is CLOSE, no other step is CLOSE. -/
def stepsFramed (ss : List SeqStep) : Bool :=
  ss.head?.any (·.isOpen) && ss.getLast?.any (·.isClose) && ss.dropLast.all fun st => !st.isClose

/-- R129 check 4: every SEND follows a write OPEN and every RECEIVE a read OPEN, with no OPEN between; `dir` is the
direction of the OPEN in force. -/
def directionsOk : Option Bool → List SeqStep → Bool
  | _, [] => true
  | _, .open _ read :: rest => directionsOk (some read) rest
  | dir, .send _ _ :: rest => dir == some false && directionsOk dir rest
  | dir, .receive _ _ :: rest => dir == some true && directionsOk dir rest
  | dir, .close :: rest => directionsOk dir rest

/-- R129 check 5: the steps between a read OPEN and the next OPEN or CLOSE end with a RECEIVE whose last-NACK is set. -/
def endsOnNack (segment : List SeqStep) : Bool :=
  segment.getLast?.any fun st => match st with
    | .receive _ lastNack => lastNack
    | .open _ _ | .send _ _ | .close => false

/-- R129 check 5, for every read OPEN. -/
def readsEnded : List SeqStep → Bool
  | [] => true
  | .open _ true :: rest => endsOnNack (rest.takeWhile fun st => !st.isOpen && !st.isClose) && readsEnded rest
  | .open _ false :: rest | .send _ _ :: rest | .receive _ _ :: rest | .close :: rest => readsEnded rest

/-- R130: the reply of the first OPEN whose target address is refused. -/
def targetRefusal (l : Layout) : List SeqStep → Option Reply
  | [] => none
  | .open t _ :: rest =>
    if t.toNat < 0x08 ∨ 0x77 < t.toNat then some .badArgument
    else if allIndices.any (fun d => (l.devices.get d).any fun e => e.answersAt t) then some .targetConflict
    else targetRefusal l rest
  | .send _ _ :: rest | .receive _ _ :: rest | .close :: rest => targetRefusal l rest

/-- R129 checks 3 to 7 and R130: the reply that refuses the steps, if any. -/
def stepsRefusal (l : Layout) (steps : List SeqStep) (outLength : Nat) : Option Reply :=
  if !stepsFramed steps || !directionsOk none steps || !readsEnded steps
      || decide (outLength < (steps.map SeqStep.sends).sum) || decide (32 < (steps.map SeqStep.receives).sum) then
    some .badArgument
  else targetRefusal l steps

/-- R128 to R130: the submission of the argument bytes `args` is refused with a reply, or gives its steps. -/
def readSubmission (l : Layout) (args : List Byte) : Except Reply (List SeqStep) :=
  let count := (args.getD 0 0#8).toNat
  let outLength := (args.getD 1 0#8).toNat
  if count = 0 ∨ 16 < count ∨ 32 < outLength then .error .badArgument
  else
    match readSteps ((args.drop 2).take (2 * count)) with
    | none => .error .badArgument
    | some steps =>
      match stepsRefusal l steps outLength with
      | some reply => .error reply
      | none => .ok steps

/-! ### The slot -/

/-- The state with the slot's state replaced. -/
def State.setSlot (s : State) (st : SlotState) : State := { s with slot := { s.slot with state := st } }

/-- R125: an in area with the bytes `bs` placed from position `k` on. -/
def placeIn (area : Vector Byte 32) (k : Nat) (bs : List Byte) : Vector Byte 32 :=
  Vector.ofFn fun i : Fin 32 => if k ≤ i.val ∧ i.val < k + bs.length then bs.getD (i.val - k) 0#8 else area.get i

/-- R127: bytes received go to the in area at the received-count position. -/
def State.fillInArea (s : State) (k : Nat) (bs : List Byte) : State :=
  { s with slot := { s.slot with inArea := placeIn s.slot.inArea k bs } }

/-- R128, R133: the in area set to 00h. -/
def State.clearInArea (s : State) : State := { s with slot := { s.slot with inArea := Vector.replicate 32 0#8 } }

/-- R136: the slot enters FINISHED: the result is made and SEQUENCE_FINISHED counted. -/
def State.finishWith (s : State) (steps : List SeqStep) (outLength received : Nat) (outcome : SeqOutcome)
    (ending : Nat) (index : Option Nat) : State :=
  let result : SeqResult :=
    { outcome := outcome, endingStep := ending, byteIndex := index, received := received
      bytes := s.slot.inArea.toList.take received }
  (s.setSlot (.finished steps outLength received result)).countEvent .sequenceFinished

/-- R134, R135: a sequence that has begun no step finishes: its ending step is 0. -/
def State.finishUnbegun (s : State) (outcome : SeqOutcome) : State :=
  match s.slot.state with
  | .waiting steps outLength _ _ | .running steps outLength _ _ _ _ _ => s.finishWith steps outLength 0 outcome 0 none
  | .empty | .finished _ _ _ _ => s

/-- The step number `k`, counted from 1. -/
def stepAt (steps : List SeqStep) (k : Nat) : Option SeqStep := steps[k - 1]?

/-- R131: the phase in which a step after the first runs. -/
def SeqStep.phase : SeqStep → BusPhase
  | .open _ _ => .reopen
  | .send _ _ => .send
  | .receive _ _ => .receive
  | .close => .close

/-- R131: the `n` out-area bytes that a SEND step sends from position `k` on. -/
def State.outBytes (s : State) (k n : Nat) : List Byte := (List.range n).map fun i => s.slot.outArea[k + i]?.getD 0#8

/-- R127, R131: the transaction as the step `st` begins, with the bytes `out` that a SEND step sends. -/
def Transaction.atStep (t : Transaction) (st : SeqStep) (out : List Byte) : Transaction :=
  let t := { t with phase := st.phase, toSend := out, received := [] }
  match st with
  | .open target read => { t with target := target, read := read, byteIndex := 0 }
  | .send _ _ | .receive _ _ | .close => t

/-- R131, R135: the current step is done: the next step begins, or with an abort pending the close of the abort. -/
def State.nextStep (s : State) (steps : List SeqStep) (outLength received retries current outPos : Nat) (abort : Bool) :
    State :=
  if abort then (s.setSlot (.running steps outLength received retries current outPos abort)).setPhase .close
  else
    let s := s.setSlot (.running steps outLength received retries (current + 1) outPos abort)
    match stepAt steps (current + 1) with
    | some st => s.setTransaction fun x => x.atStep st (s.outBytes outPos st.sends)
    | none => s

/-- R133, R134: the byte of the step in progress, given for SEND and RECEIVE steps alone; `got` bytes of the step were
handed over before. -/
def progressIndex (st : Option SeqStep) (got : Nat) (p : Progress) : Option Nat :=
  match st with
  | some (.send _ _) => some p.sent
  | some (.receive _ _) => some (got + p.received.length)
  | some (.open _ _) | some .close | none => none

/-- Whether the progress is that of a step that has not ended, with `unsent` bytes of it still to send and `got` handed
over when the last command was taken. -/
def progressFits (st : Option SeqStep) (unsent got : Nat) (p : Progress) : Bool :=
  match st with
  | some (.send n _) => n - unsent ≤ p.sent && p.sent < n && p.received.isEmpty
  | some (.receive n _) => got + p.received.length < n
  | some (.open _ _) | some .close => p.received.isEmpty
  | none => false

/-- R133, R134: the bytes of a RECEIVE step in progress that were received whole. -/
def receivedIn (st : Option SeqStep) (p : Progress) : List Byte :=
  match st with
  | some (.receive _ _) => p.received
  | some (.open _ _) | some (.send _ _) | some .close | none => []

/-- R131, R135: the transaction of the sequence stands in its CLOSE step, or in the close of an abort. -/
def State.sequenceCloses (s : State) : Bool := s.bus.transaction.any fun t => t.phase == .close

/-- R133, R134: the running sequence is cut off in its current step and finishes. In the close of an abort no step is in
progress: the ending step is then the step last finished, with no byte index (DESIGN CHOICE, log entry 40). In the close that
follows a refused byte (R110) R134 does not say which step and byte are in progress: the ending step is the step refused, and
of a SEND step the byte index is that of the operand, which is the refused byte (DESIGN CHOICE, log entry 48). -/
def State.cutSequence (s : State) (outcome : SeqOutcome) (p : Progress) : State :=
  match s.slot.state with
  | .running steps outLength received _ current _ _ =>
    let st := if s.sequenceCloses then none else stepAt steps current
    let bs := receivedIn st p
    (s.fillInArea received bs).finishWith steps outLength (received + bs.length) outcome current
      (progressIndex st s.handed.length p)
  | .empty | .waiting _ _ _ _ | .finished _ _ _ _ => s

/-- R133, R135: the running sequence loses the bus: it waits for a re-run, or at the limit or with an abort pending
finishes LOST. -/
def State.loseSequence (s : State) (p : Progress) : State :=
  match s.slot.state with
  | .running steps outLength _ retries _ _ abort =>
    if !abort && decide (retries < s.layout.params.retries) then
      (s.setSlot (.waiting steps outLength 0 (retries + 1))).clearInArea
    else s.cutSequence .lost p
  | .empty | .waiting _ _ _ _ | .finished _ _ _ _ => s

/-- R110: whether the progress is that of the byte that a NACK has refused, in the close that follows it. -/
def State.refusedFits (s : State) (p : Progress) : Bool :=
  match s.bus.refused with
  | some (.byte k) => p.sent == k
  | some (.address _) | none => true

/-- Whether the progress operand fits the step of the running sequence; any fits in its CLOSE step and an abort's close. -/
def State.sequenceFits (s : State) (p : Progress) : Bool :=
  match s.slot.state with
  | .running steps _ _ _ current _ _ =>
    s.sequenceCloses || (progressFits (stepAt steps current) s.unsent s.handed.length p && s.refusedFits p)
  | .empty | .waiting _ _ _ _ | .finished _ _ _ _ => false

/-- R135: whether an abort finds a sequence to end. -/
def SlotState.abortable : SlotState → Bool
  | .waiting _ _ _ _ | .running _ _ _ _ _ _ _ => true
  | .empty | .finished _ _ _ _ => false

/-- R135: the slot is aborted: WAITING finishes ABORTED, RUNNING has abort pending set. -/
def State.abortSlot (s : State) : State :=
  match s.slot.state with
  | .waiting _ _ _ _ => s.finishUnbegun .aborted
  | .running steps outLength received retries current outPos _ =>
    s.setSlot (.running steps outLength received retries current outPos true)
  | .empty | .finished _ _ _ _ => s

/-- R173: whether the slot is RUNNING. -/
def SlotState.isRunning : SlotState → Bool
  | .running _ _ _ _ _ _ _ => true
  | .empty | .waiting _ _ _ _ | .finished _ _ _ _ => false

end Sys2Proof.Machine
end

