-- ==== Sys2Proof/Machine/Reports.lean ====
section
/-! DEFINITION. The byte encodings of what leaves the service port: codes (R176), the status, event and layout reports
(R153, R154, R156, R176), the buffer report and the fault record (R155, R177), the sequence result (R178). -/

namespace Sys2Proof.Machine

/-! ### Numbers -/

/-- A number in one byte. -/
def byteOf (n : Nat) : Byte := BitVec.ofNat 8 n

/-- A number in one byte, FFh when absent (R177). -/
def optByte (n : Option Nat) : Byte := (n.map byteOf).getD 0xFF#8

/-- Two bytes, the high byte first. -/
def halfBytes (h : Half) : List Byte := [highByte h, lowByte h]

/-- A number in two bytes, the high byte first. -/
def pairBytes (n : Nat) : List Byte := halfBytes (BitVec.ofNat 16 n)

/-- Four bytes, the most significant first. -/
def wordBytes (w : Word) : List Byte := [(w >>> 24).setWidth 8, (w >>> 16).setWidth 8, (w >>> 8).setWidth 8, w.setWidth 8]

/-- R177: a time, FFFFFFFFh when absent. -/
def timeBytes (t : Option Word) : List Byte := wordBytes (t.getD 0xFFFFFFFF#32)

/-! ### Codes (R176) -/

/-- R176: the reply status byte. -/
def Reply.code : Reply → Byte
  | .ok => 0x01#8
  | .busy => 0x02#8
  | .wrongState => 0x03#8
  | .badArgument => 0x04#8
  | .unknown => 0x05#8
  | .heldPresent => 0x06#8
  | .targetConflict => 0x07#8
  | .notReady => 0x08#8

/-- R176: the mode code. -/
def Mode.code : Mode → Nat
  | .starting => 0
  | .running => 1
  | .reloading _ => 2
  | .flushing => 3
  | .safe => 4

/-- R176: the layout source code. -/
def LayoutSource.code : LayoutSource → Nat
  | .record => 0
  | .fallback => 1

/-- R176: the bus state code. -/
def BusStatus.code : BusStatus → Nat
  | .free => 0
  | .owned => 1
  | .foreign => 2
  | .clearing => 3
  | .stuck => 4

/-- R176: the stream state code. -/
def Stream.code : Stream → Nat
  | .closed => 0
  | .opening _ => 1
  | .running _ => 2
  | .parked _ _ => 3
  | .closing _ => 4

/-- R176: the device status code. -/
def DeviceStatus.code : DeviceStatus → Nat
  | .ready => 0
  | .cycling _ _ => 1
  | .silent _ => 2

/-- R176: the buffer state code. -/
def BufferState.code : BufferState → Nat
  | .free => 0
  | .gather => 1
  | .sealed => 2
  | .fill => 3
  | .commit => 4
  | .cycle => 5
  | .verify => 6
  | .clean => 7
  | .held => 8

/-- R176: the hold cause code. -/
def HoldCause.code : HoldCause → Nat
  | .dataRefused => 0
  | .cycleTimeout => 1
  | .deviceSilent => 2
  | .retryExhausted => 3
  | .checkMismatch => 4

/-- R176: the sequence slot code. -/
def SlotState.code : SlotState → Nat
  | .empty => 0
  | .waiting _ _ _ _ => 1
  | .running _ _ _ _ _ _ _ => 2
  | .finished _ _ _ _ => 3

/-- R178: the outcome code of a sequence result. -/
def SeqOutcome.code : SeqOutcome → Nat
  | .done => 0
  | .nacked => 1
  | .lost => 2
  | .timeout => 3
  | .stuck => 4
  | .aborted => 5

/-- R177: the code of a fault kind. -/
def FaultKind.code : FaultKind → Nat
  | .unmapped => 0
  | .readOnly => 1
  | .checkBytes => 2
  | .noBuffer => 3
  | .deviceSilentAccess => 4
  | .readNack => 5
  | .readRetries => 6
  | .checkMismatchRead => 7
  | .checkMismatchFill => 8
  | .dataRefused => 9
  | .cycleTimeout => 10
  | .noAnswer => 11
  | .commitRetries => 12
  | .busStuck => 13
  | .layoutRejected => 14
  | .reloadAbandoned => 15

/-! ### Status and events (R153, R154) -/

/-- R153, R176: the status report, 28 bytes. -/
def State.statusReport (s : State) : List Byte :=
  [byteOf s.control.mode.code, optByte (s.control.source.map LayoutSource.code), byteOf s.bus.status.code
   , byteOf s.reads.stream.code]
  ++ allIndices.map (fun d => byteOf (s.record d).status.code)
  ++ allIndices.map (fun n => byteOf (s.bufferState n).code)
  ++ [byteOf s.table.queue.length, byteOf s.events.log.length, byteOf s.events.overflow, byteOf s.slot.state.code]
  ++ wordBytes s.uptime

/-- R154, R176: the event report, 24 bytes. -/
def EventUnit.report (e : EventUnit) : List Byte :=
  (List.finRange 16).map (fun k => byteOf (e.count k)) ++ halfBytes e.mask
    ++ [byteOf e.log.length, byteOf e.overflow] ++ wordBytes e.uptime

/-! ### Fault records (R177) -/

/-- R177: two halves of a byte, Fh for an absent one. -/
def nibbles (high low : Option Index) : Byte :=
  byteOf ((high.map Fin.val).getD 15 * 16 + (low.map Fin.val).getD 15)

/-- R177: bytes 9 to 11 of a fault record: the buffer above the 20-bit place. -/
def placeBytes (buffer : Option Index) (place : Option Nat) : List Byte :=
  let v := (buffer.map Fin.val).getD 15 * 2 ^ 20 + place.getD 0xFFFFF % 2 ^ 20
  [byteOf (v / 65536), byteOf (v / 256), byteOf v]

/-- R177: the fault record, 12 bytes. -/
def FaultRecord.bytes (r : FaultRecord) : List Byte :=
  halfBytes r.number ++ [byteOf r.info.kind.code, r.info.detail] ++ wordBytes r.time
    ++ [nibbles r.info.device r.info.window] ++ placeBytes r.info.buffer r.info.place

/-- R177: the empty record. -/
def emptyRecord : List Byte := List.replicate 12 0xFF#8

/-- R154, R164: what PEEK FAULT returns. -/
def EventUnit.peek (e : EventUnit) : List Byte := (e.log.head?.map FaultRecord.bytes).getD emptyRecord

/-! ### The buffer report (R155, R177) -/

/-- R177: eight flags of a mask in a byte, the lowest position in bit 7. -/
def maskByte (m : Mask) (k : Nat) : Byte :=
  (List.range 8).foldl (fun b i => (b <<< 1) ||| (if m.has (8 * k + i) then 1#8 else 0#8)) 0#8

/-- R177: a mask in eight bytes. -/
def maskBytes (m : Mask) : List Byte := (List.range 8).map (maskByte m)

/-- R155: the hold cause, in HELD. -/
def Phase.cause : Phase → Option HoldCause
  | .held c => some c
  | .gather _ | .sealed _ | .fill _ | .commit _ _ | .cycle _ _ | .verify _ | .clean _ => none

/-- R155: the forced flag, in SEALED, FILL, COMMIT and CYCLE. -/
def Phase.forced : Phase → Option Bool
  | .sealed f | .fill f | .commit f _ | .cycle f _ => some f
  | .gather _ | .verify _ | .clean _ | .held _ => none

/-- R155: the run list, in COMMIT and CYCLE. -/
def Phase.runs : Phase → Option (List Run)
  | .commit _ rs | .cycle _ rs => some rs
  | .gather _ | .sealed _ | .fill _ | .verify _ | .clean _ | .held _ => none

/-- R155: the last-use time, in CLEAN. -/
def Phase.lastUse : Phase → Option Word
  | .clean t => some t
  | .gather _ | .sealed _ | .fill _ | .commit _ _ | .cycle _ _ | .verify _ | .held _ => none

/-- R155: the gather deadline, in GATHER. -/
def Phase.deadline : Phase → Option Word
  | .gather t => some t
  | .sealed _ | .fill _ | .commit _ _ | .cycle _ _ | .verify _ | .clean _ | .held _ => none

/-- R177: the 32 run entries. -/
def runBytes (rs : List Run) : List Byte :=
  (List.range 32).flatMap fun i =>
    match rs[i]? with
    | some r => [byteOf r.first, byteOf r.count]
    | none => [0x00#8, 0x00#8]

/-- R155, R177: the buffer report of buffer `n`, 167 bytes. -/
def State.bufferReport (s : State) (n : Index) : List Byte :=
  let b := s.buffer n
  let h := b.hold
  let ph := h.map (·.phase)
  [byteOf n.val, byteOf b.state.code, optByte (h.map (·.device.val))
   , optByte ((h.bind fun h => s.windowOf h.device h.page).map Fin.val)]
  ++ pairBytes ((h.map (·.page)).getD 0xFFFF)
  ++ [optByte (h.map (·.generation)), optByte ((ph.bind Phase.cause).map HoldCause.code)
      , optByte ((ph.bind Phase.forced).map Bool.toNat), optByte (h.map (·.retries))]
  ++ maskBytes ((h.map (·.written)).getD 0#64) ++ maskBytes ((h.map (·.source)).getD 0#64)
  ++ timeBytes (h.map (·.lastWrite)) ++ timeBytes (ph.bind Phase.lastUse) ++ timeBytes (ph.bind Phase.deadline)
  ++ [optByte ((ph.bind Phase.runs).map List.length)]
  ++ runBytes ((ph.bind Phase.runs).getD [])
  ++ b.image.firstBytes 64

/-! ### The layout report (R156, R176) -/

/-- R175: the rate code. -/
def BusRate.code : BusRate → Nat
  | .kHz100 => 0
  | .kHz400 => 1
  | .kHz1000 => 2

/-- R175: a device record. -/
def DeviceEntry.bytes (e : DeviceEntry) : List Byte :=
  [e.target.setWidth 8, byteOf e.addressBytes, byteOf e.blockBits, byteOf e.capacityCode, byteOf e.pageCode
   , (match e.kind with
      | .cycled => 0x00#8
      | .immediate => 0x01#8)
   , byteOf e.cycleLimit, 0x00#8]

/-- R175: the attributes byte of a window record. -/
def WindowEntry.attributes (w : WindowEntry) : Byte :=
  byteOf (w.readOnly.toNat + 2 * w.checked.toNat + 4 * w.mergeFill.toNat)

/-- R175: a window record. -/
def WindowEntry.bytes (w : WindowEntry) : List Byte :=
  pairBytes w.hostBase ++ [byteOf w.sizeCode, byteOf w.device.val] ++ pairBytes w.deviceOffset
    ++ [w.attributes, byteOf w.gatherTime]

/-- R175: bytes 5 to 13 of the layout record. -/
def Params.bytes (p : Params) : List Byte :=
  [byteOf p.rate.code, byteOf p.poll, byteOf p.park, byteOf p.stretch, byteOf p.retries, byteOf p.depth, byteOf p.reserve]
    ++ halfBytes p.eventMask

/-- R156, R176: the layout report. -/
def State.layoutReport (s : State) : List Byte :=
  let devices := allIndices.filterMap fun i => s.layout.devices.get i
  let windows := allIndices.filterMap fun j => s.layout.windows.get j
  [optByte (s.control.source.map LayoutSource.code), byteOf devices.length, byteOf windows.length]
    ++ s.layout.params.bytes ++ devices.flatMap DeviceEntry.bytes ++ windows.flatMap WindowEntry.bytes

/-- R178: the response of GET SEQUENCE RESULT. -/
def SeqResult.report (r : SeqResult) : List Byte :=
  [byteOf r.outcome.code, byteOf r.endingStep, optByte r.byteIndex, byteOf r.received] ++ r.bytes

end Sys2Proof.Machine
end

