-- ==== Sys2Proof/Machine/ReadPath.lean ====
section
/-! DEFINITION. The Read Path's shared operations: the read-ahead queue (R72 to R74), the stream (R75 to R82), the
resolution of a read (R69 to R71, R76, R93) and the allocation of a VERIFY buffer (R37). -/

namespace Sys2Proof.Machine

/-! ### The read-ahead queue -/

/-- R72: the queue has room for a byte. -/
def State.aheadRoom (s : State) : Bool := s.reads.ahead.bytes.length < s.layout.params.depth

/-- R72: a byte of device `d` at offset `x` joins the tail of the queue `a`. -/
def ReadAhead.append (a : ReadAhead) (d : Index) (x : Nat) (v : Byte) : ReadAhead :=
  if a.bytes.isEmpty then { device := d, first := x, bytes := [v] } else { a with bytes := a.bytes ++ [v] }

/-- R74: the queue is emptied. -/
def State.emptyAhead (s : State) : State := s.setAhead .empty

/-- R74: the queue is emptied if it holds bytes of device `d`. -/
def State.emptyAheadOf (s : State) (d : Index) : State :=
  if !s.reads.ahead.bytes.isEmpty && s.reads.ahead.device == d then s.emptyAhead else s

/-- R73: whether the queue holds offset `x` of device `d`. -/
def ReadAhead.holds (a : ReadAhead) (d : Index) (x : Nat) : Bool :=
  a.device == d && a.first ≤ x && x < a.first + a.bytes.length

/-- R73: the queue without the entry at offset `x` and every entry before it. -/
def ReadAhead.after (a : ReadAhead) (x : Nat) : ReadAhead :=
  let rest := a.bytes.drop (x - a.first + 1)
  if rest.isEmpty then .empty else { a with first := x + 1, bytes := rest }

/-- R73: the byte at offset `x` of device `d` is supplied by the queue. -/
def State.takeAhead (s : State) (d : Index) (x : Nat) : Option (Byte × State) :=
  let a := s.reads.ahead
  if a.holds d x then some (a.bytes.getD (x - a.first) 0#8, s.setAhead (a.after x)) else none

/-! ### The stream -/

/-- Whether the read in progress closes the stream of another place (R76). -/
def State.readCloses (s : State) : Bool :=
  s.readRecord.any fun r => match r.wait with
    | .close _ => true
    | .none | .device | .bus | .buffer => false

/-- R79, R81, R118: a close of the stream is wanted, by the arbiter, by the mode or by a read of another place; the close
demanded with the Empty of a reload outlasts the demand (R88; DEDUCED, log entry 7). -/
def State.closeWanted (s : State) : Bool :=
  s.otherWaits || s.control.mode.demandsClose || s.readCloses || s.reads.dropsAhead

/-- R70, R78: the read that the stream works for, if it works for one. -/
def State.servedRead (s : State) : Option ReadRecord :=
  s.readRecord.filter fun r => r.wait == .none && !r.translation.checked

/-- R79, R80: what a RUNNING stream with no host byte to receive does next: it closes, reads ahead, or parks. A cause to
close counts if it stands at the end of the byte in progress (DESIGN CHOICE, log entry 34). -/
def State.streamNext (s : State) : State :=
  match s.reads.stream with
  | .running p =>
    if s.closeWanted then s.setStream (.closing p)
    else if s.aheadRoom then s
    else if s.layout.params.park = 0 then s.setStream (.closing p)
    else (s.setStream (.parked p (s.deadline s.layout.params.park))).setPhase .park
  | .closed | .opening _ | .parked _ _ | .closing _ => s

/-- R80, R81: a PARKED stream whose close is wanted becomes CLOSING at once. -/
def State.parkedCloses (s : State) : State :=
  match s.reads.stream with
  | .parked p _ => if s.closeWanted then (s.setStream (.closing p)).resume else s
  | .closed | .opening _ | .running _ | .closing _ => s

/-- R79: a host read has completed: a PARKED stream with room, no requester waiting and no close demand reads ahead
again. -/
def State.readAheadRestart (s : State) : State :=
  match s.reads.stream with
  | .parked p _ => if s.aheadRoom && !s.closeWanted then (s.setStream (.running p)).resume else s
  | .closed | .opening _ | .running _ | .closing _ => s

/-- R69: every touched byte has its value: the read is answered. -/
def State.completeRead (s : State) (bs : List Byte) : State := (s.serveRead bs).readAheadRestart

/-- The stream becomes CLOSED, and a later one's bytes join the queue again. -/
def State.streamCloses (s : State) : State := s.setReads { s.reads with stream := .closed, dropsAhead := false }

/-- R88, R170: the Empty demand of a reload: the queue is emptied, and the bytes of a stream still open do not join it
(DEDUCED, log entry 7). -/
def State.demandEmpty (s : State) : State :=
  s.setReads { s.reads with ahead := .empty, dropsAhead := s.reads.stream != .closed }

/-- R79 to R82: a byte of the stream at `p` joins the queue, if there is room for it. -/
def State.joinAhead (s : State) (p : StreamPos) (v : Byte) : State :=
  if s.aheadRoom && !s.reads.dropsAhead then s.setAhead (s.reads.ahead.append p.device p.next v) else s

/-! ### Resolution -/

/-- The device offset of the byte at position `pos` of a translation. -/
def Translation.offsetAt (t : Translation) (pos : Nat) : Nat := t.pageStart + pos

/-- The device offset of the current byte of a read. -/
def ReadRecord.currentOffset (r : ReadRecord) : Nat :=
  r.translation.offsetAt (r.translation.positions.getD r.values.length 0)

/-- R86, R144: the current read is refused with the fault `kind`; the place is the byte whose resolution failed. -/
def State.refuseRead (s : State) (r : ReadRecord) (kind : FaultKind) (detail : Byte) (buffer : Option Index) : State :=
  s.refuse (some
    { kind := kind, detail := detail, device := some r.translation.device, window := some r.translation.window
      buffer := buffer, place := some (s.accessAddress + r.values.length) })

/-- R71: the current read is refused with DEVICE_SILENT_ACCESS. -/
def State.refuseSilentRead (s : State) (r : ReadRecord) : State :=
  s.refuseRead r .deviceSilentAccess (s.nackByte r.translation.device) none

/-- R37: the current read is refused with NO_BUFFER. -/
def State.refuseNoBufferRead (s : State) (r : ReadRecord) : State :=
  s.refuseRead r .noBuffer (BitVec.ofNat 8 s.heldCount) none

/-- R76: a byte of an unchecked window goes to the stream. DEDUCED, log entry 8: an OPENING stream at the byte's place
serves it. -/
def State.seekStream (s : State) (r : ReadRecord) (x : Nat) : State :=
  let d := r.translation.device
  let here := fun p : StreamPos => p.device == d && p.next == x
  match s.reads.stream with
  | .closed => (s.setRead { r with wait := .bus }).present (.streamOpen d x)
  | .parked p _ =>
    if here p then ((s.setRead { r with wait := .none }).setStream (.running p)).resume
    else ((s.setRead { r with wait := .close false }).setStream (.closing p)).resume
  | .running p | .opening p => s.setRead { r with wait := if here p then .none else .close false }
  | .closing _ => s.setRead { r with wait := .close true }

/-- R37: a checked read takes a buffer into VERIFY and asks for the VERIFY read, waits for a buffer, or is refused. -/
def State.allocateVerify (s : State) (r : ReadRecord) : State :=
  match s.obtain with
  | some (n, s) =>
    let s := s.openBuffer n r.translation.device r.translation.page (.verify (s.accessAddress + r.values.length))
    let s := s.reserveSeal none
    (s.setRead { r with wait := .bus, verifyBuffer := some n }).present (.verify n)
  | none => if s.noBufferToCome then s.refuseNoBufferRead r else s.setRead { r with wait := .buffer }

/-- R93: a checked read whose device is READY: with a verify buffer of its own it goes on waiting for it, else it asks
for one. -/
def State.seekVerify (s : State) (r : ReadRecord) : State :=
  match r.verifyBuffer.filter fun n => s.bufferState n == .verify with
  | some n =>
    if s.bus.hostReads.contains (.verify n) then s.setRead { r with wait := .bus }
    else if s.job == some (.verify n) then s.setRead { r with wait := .none }
    else (s.setRead { r with wait := .bus }).present (.verify n)
  | none => s.allocateVerify r

/-- R71, R93: a byte that neither forwarding nor the read-ahead queue supplies. -/
def State.seekMemory (s : State) (r : ReadRecord) : State :=
  match (s.record r.translation.device).status with
  | .silent _ => s.refuseSilentRead r
  | .ready =>
    if s.isStuck then s.refuse none
    else if r.translation.checked then s.seekVerify r else s.seekStream r r.currentOffset
  | .cycling _ _ => if s.isStuck then s.refuse none else s.setRead { r with wait := .device }

/-- R69: the touched bytes at positions `rest` are resolved in turn, each from the first source that supplies it. -/
def State.resolveFrom : List Nat → ReadRecord → State → State
  | [], r, s => s.completeRead r.values
  | pos :: rest, r, s =>
    let t := r.translation
    match s.forward t.device t.page pos with
    | some (v, s) => s.resolveFrom rest { r with values := r.values ++ [v] }
    | none =>
      match if t.checked then none else s.takeAhead t.device (t.offsetAt pos) with
      | some (v, s) => s.resolveFrom rest { r with values := r.values ++ [v] }
      | none => s.seekMemory r

/-- R70: the current byte's resolution starts at forwarding. -/
def State.resolve (s : State) (r : ReadRecord) : State :=
  s.resolveFrom (r.translation.positions.drop r.values.length) r

/-- R76: the stream has closed; a read that waited for that seeks its byte at forwarding again, or asks for its open. -/
def State.afterClose (s : State) : State :=
  match s.readRecord with
  | some r =>
    match r.wait with
    | .close true => s.resolve r
    | .close false => s.seekMemory r
    | .none | .device | .bus | .buffer => s
  | none => s

/-- R84: the read counts a retry and starts its byte again, or is refused with READ_RETRIES. -/
def State.retryRead (s : State) (r : ReadRecord) (outcome : Byte) : State :=
  if r.retries < s.layout.params.retries then s.resolve { r with retries := r.retries + 1 }
  else s.refuseRead r .readRetries outcome none

/-- R83 to R85: the stream's transaction has failed: the read it served goes on as `f` says, a read that waited for
its close goes on as after the close. -/
def State.streamFails (s : State) (f : State → ReadRecord → State) : State :=
  let served := s.servedRead
  let s := s.streamCloses
  match served with
  | some r => f s r
  | none => s.afterClose

/-- R87: what the Read Path leaves when a read is withdrawn or handed back: its stream open request is withdrawn. -/
def State.dropRead (s : State) : State := s.withdraw HostReadRequest.isStreamOpen

/-- R98: the read that waits on verify buffer `n`, if it still does. -/
def State.verifyReader (s : State) (n : Index) : Option ReadRecord :=
  s.readRecord.filter fun r => r.verifyBuffer == some n

end Sys2Proof.Machine
end

