-- ==== Sys2Proof/Machine/Accesses.lean ====
section
/-! DEFINITION. Taking a write (R21 to R29), the wait for a buffer and its refusal (R25, R26), the dispatch of an
access (R139 to R141), its withdrawal and hand-back (R88, R140, R145). -/

namespace Sys2Proof.Machine

/-- The write data of the access in progress. -/
def State.writeData (s : State) : List Byte :=
  match s.port with
  | .waiting req _ | .answered req _ => req.data
  | .idle => []

/-- R144: the fault of a write refused with a window named. -/
def State.writeFault (s : State) (t : Translation) (kind : FaultKind) (detail : Byte) : FaultInfo :=
  { kind := kind, detail := detail, device := some t.device, window := some t.window, buffer := none
    place := some s.accessAddress }

/-- R21, R26: a write to a SILENT device is refused. -/
def State.refuseSilentWrite (s : State) (t : Translation) : State :=
  s.refuse (some (s.writeFault t .deviceSilentAccess (s.nackByte t.device)))

/-- R26: a write that can get no buffer is refused. -/
def State.refuseNoBufferWrite (s : State) (t : Translation) : State :=
  s.refuse (some (s.writeFault t .noBuffer (BitVec.ofNat 8 s.heldCount)))

/-- R29: the seal at acceptance of a buffer whose page is complete, or whose window's gather time is 0. -/
def State.sealIfDue (s : State) (n : Index) (t : Translation) : State :=
  match (s.buffer n).hold with
  | some h =>
    if pageComplete t.checked t.pageSize h.written || t.gatherTime == 0 then s.sealBuffer n else s
  | none => s

/-- R21, R29, R142: the write merges into buffer `n` and is accepted; `obtained` tells an allocation (R27). -/
def State.acceptInto (s : State) (n : Index) (t : Translation) (obtained : Bool) : State :=
  let s := (s.mergeWrite n t s.writeData).acceptWrite
  let s := s.sealIfDue n t
  if obtained then s.reserveSeal (some n) else s

/-- R25, R26: the write finds no buffer: it displaces, and waits unless a condition of R26 refuses it. -/
def State.waitForBuffer (s : State) (t : Translation) : State :=
  let s := s.sealOldest none
  if s.noBufferToCome then s.refuseNoBufferWrite t
  else if s.isStuck then s.refuse none
  else if s.isSilent t.device then s.refuseSilentWrite t
  else s.setHold (.buffers t)

/-- R22 steps 3 to 5: a FREE buffer, an evicted one, or the wait. -/
def State.writeNewBuffer (s : State) (t : Translation) : State :=
  match s.obtain with
  | some (n, s) => (s.openBuffer n t.device t.page (.gather s.uptime)).acceptInto n t true
  | none => s.waitForBuffer t

/-- R22 steps 1 and 2: the CLEAN buffer `c` of the page converts, or makes way. -/
def State.writeOverClean (s : State) (t : Translation) (c : Index) : State :=
  if (s.buffersOf t.device t.page).length = 1 then (s.convert c t).acceptInto c t true
  else (s.freeBuffer c).writeNewBuffer t

/-- R21: a MAPPED write reaches the Page Buffer Table. -/
def State.writeAccess (s : State) (t : Translation) : State :=
  if s.isSilent t.device then s.refuseSilentWrite t
  else
    match s.findOf t.device t.page .gather with
    | some n => s.acceptInto n t false
    | none =>
      match s.findOf t.device t.page .clean with
      | some c => s.writeOverClean t c
      | none => s.writeNewBuffer t

/-- R69, R70: a MAPPED read reaches the Read Path. -/
def State.readAccess (s : State) (t : Translation) : State :=
  let r : ReadRecord := { translation := t, values := [], retries := 0, wait := .none, verifyBuffer := none }
  (s.setRead r).resolve r

/-- R141: the fault of an access refused on classification. -/
def State.classFault (s : State) (kind : FaultKind) (detail : Byte) (window : Option Index) : FaultInfo :=
  { kind := kind, detail := detail, window := window
    device := (window.bind fun i => s.layout.windows.get i).map (·.device)
    buffer := none, place := some s.accessAddress }

/-- R141: the WAITING access is classified and handed on. -/
def State.dispatch (s : State) : State :=
  match s.port with
  | .waiting req _ =>
    match s.layout.classify req with
    | .unmapped => s.refuse (some (s.classFault .unmapped req.accessCode none))
    | .readOnly i => s.refuse (some (s.classFault .readOnly req.accessCode (some i)))
    | .checkBytes i p => s.refuse (some (s.classFault .checkBytes (BitVec.ofNat 8 p) (some i)))
    | .mapped t => if req.write then s.writeAccess t else s.readAccess t
  | .idle | .answered _ _ => s

/-- R139, R140: an access just taken is acted on by the mode; one with no lane is answered at once. -/
def State.dispatchByMode (s : State) : State :=
  match s.port with
  | .waiting req _ =>
    match s.control.mode with
    | .flushing | .safe => s.refuse none
    | .starting | .reloading _ =>
      if req.touched.isEmpty then if req.write then s.acceptWrite else s.serveRead [] else s
    | .running =>
      if req.touched.isEmpty then if req.write then s.acceptWrite else s.serveRead [] else s.dispatch
  | .idle | .answered _ _ => s

/-- R140: the mode has become RUNNING, FLUSHING or SAFE, and the access with hold MODE leaves it. -/
def State.leaveModeHold (s : State) : State :=
  match s.control.mode with
  | .running => s.dispatch
  | .flushing | .safe => s.refuse none
  | .starting | .reloading _ => s

/-- Whether the access in progress has hold MODE. -/
def State.heldByMode (s : State) : Bool :=
  match s.port with
  | .waiting _ .mode => true
  | .idle | .waiting _ (.buffers _) | .waiting _ (.readPath _) | .answered _ _ => false

/-- R88, R140: an access with the Page Buffer Table or the Read Path is handed back to the port, to wait on the mode. -/
def State.handBack (s : State) : State :=
  match s.port with
  | .waiting _ (.readPath _) => s.dropRead.setHold .mode
  | .waiting _ (.buffers _) => s.setHold .mode
  | .idle | .waiting _ .mode | .answered _ _ => s

/-- R145: the access in progress is withdrawn and dropped at the block that holds it. -/
def State.withdrawAccess (s : State) : State :=
  match s.port with
  | .waiting _ (.readPath _) => { s.dropRead with port := .idle }
  | .waiting _ _ => { s with port := .idle }
  | .idle | .answered _ _ => s

/-- R26, R37: the tests of a write that waits for a buffer. While a buffer is FREE or CLEAN the access is about to leave
its wait, so no test is made (R26: the earlier event decides; DESIGN CHOICE, log entry 5). -/
def State.testWaitingWrite (s : State) (t : Translation) : State :=
  if !s.noneSpare then s
  else if s.noBufferToCome then s.refuseNoBufferWrite t
  else if s.isStuck then s.refuse none
  else if s.isSilent t.device then s.refuseSilentWrite t
  else s

/-- R37, R71: the tests of a read that waits for a buffer or for its device (DEDUCED, log entry 24). -/
def State.testWaitingRead (s : State) (r : ReadRecord) : State :=
  match r.wait with
  | .buffer =>
    if !s.noneSpare then s
    else if s.noBufferToCome then s.refuseNoBufferRead r
    else if s.isStuck then s.refuse none
    else if s.isSilent r.translation.device then s.refuseSilentRead r
    else s
  | .device =>
    if s.isSilent r.translation.device then s.refuseSilentRead r
    else if s.isStuck then s.refuse none
    else s
  | .none | .bus | .close _ => s

/-- R26, R37, R71: the tests that an event makes of the access that waits. -/
def State.testWaiting (s : State) : State :=
  match s.port with
  | .waiting _ (.buffers t) => s.testWaitingWrite t
  | .waiting _ (.readPath r) => s.testWaitingRead r
  | .idle | .waiting _ .mode | .answered _ _ => s

end Sys2Proof.Machine
end

