-- ==== Sys2Proof/Machine/Devices.lean ====
section
/-! DEFINITION. Ends of commits and of VERIFY reads at the buffers (R66, R94, R95, R102), retries (R57), NACKs of
IMMEDIATE devices (R49), and a device entering SILENT (R55). -/

namespace Sys2Proof.Machine

/-- The verify buffer `n` becomes FREE, and the read that waits on it goes on as `f` says (R94, R96, R97). -/
def State.endVerify (s : State) (n : Index) (f : State → ReadRecord → State) : State :=
  let reader := s.verifyReader n
  let s := s.freeIf .verify n
  match reader with
  | some r => f s { r with verifyBuffer := none }
  | none => s

/-- R94: an ungranted VERIFY read is abandoned: its buffer becomes FREE, its request is withdrawn, a read waiting on it
starts its byte again at forwarding. -/
def State.abandonVerify (s : State) (n : Index) : State :=
  if s.bufferState n = .verify ∧ s.job ≠ some (.verify n) then
    (s.withdraw fun q => q == .verify n).endVerify n State.resolve
  else s

/-- R95, R102: the CLEAN buffers of the page other than `n` become FREE. -/
def State.freeOtherClean (s : State) (n d : Index) (p : Nat) : State :=
  ((s.buffersOf d p).filter (· != n)).foldl (fun s m => s.freeIf .clean m) s

/-- R41: while the mode is FLUSHING a buffer that enters CLEAN becomes FREE at the same event. -/
def State.flushClean (s : State) (n : Index) : State :=
  if s.control.mode = .flushing then s.freeIf .clean n else s

/-- R66, R102: the commit of buffer `n` ends. -/
def State.commitEnds (s : State) (n : Index) : State :=
  match (s.buffer n).hold with
  | none => s
  | some h =>
    if s.isChecked h.device h.page then
      let s := s.updateHold n fun h => { h with written := 0#64, retries := 0, phase := .clean s.uptime }
      let s := s.freeOtherClean n h.device h.page
      let s := (s.buffersOf h.device h.page).foldl State.abandonVerify s
      (s.flushClean n).select
    else (s.freeBuffer n).select

/-- R57: a commit transaction counts one retry: it rejoins the request list, or at the limit its buffer is HELD. -/
def State.retryCommit (s : State) (n : Index) (outcome : Byte) : State :=
  match (s.buffer n).hold with
  | none => s
  | some h =>
    if h.retries < s.layout.params.retries then
      (s.updateHold n fun h => { h with retries := h.retries + 1 }).joinRequest n
    else
      let s := s.logFault (s.bufferFault .commitRetries outcome h.device (some n))
      (s.holdBuffer .retryExhausted n).select

/-- The buffer of device `d` in FILL, COMMIT or CYCLE. -/
def State.committingOf (s : State) (d : Index) : Option Index :=
  allIndices.find? fun n => s.isOf d n && (s.bufferState n).committing

/-- R55: device `d` enters SILENT: `own` is the buffer that takes `cause`, every other takes DEVICE_SILENT; `kind` is
the fault logged. The access that waits for a buffer or for the device is tested at this event, before the VERIFY buffers
of the device are freed (R26, R37, R71). -/
def State.enterSilent (s : State) (d : Index) (own : Option Index) (cause : HoldCause) (kind : FaultKind) : State :=
  let fault := s.bufferFault kind (s.nackByte d) d (s.committingOf d)
  let s := s.setStatus d (.silent { next := s.deadline Config.reviveInterval, due := false })
  let s := (s.countEvent .deviceSilent).logFault fault
  let s := allIndices.foldl
    (fun s n => if s.isOf d n then s.holdBuffer (if own = some n then cause else .deviceSilent) n else s) s
  let s := s.testWaiting
  let s := allIndices.foldl
    (fun s n => if s.isOf d n && s.bufferState n == .verify then
        (s.withdraw fun q => q == .verify n).endVerify n State.refuseSilentRead
      else s) s
  s.select

/-- R49: an address NACK of the IMMEDIATE device `d`, met by the transaction of buffer `own` or by a read; `reopened`
tells that its address had been acknowledged before. Past the retry limit the device enters SILENT with NO_ANSWER (DEDUCED,
log entries 10 and 23). -/
def State.nackImmediate (s : State) (d : Index) (own : Option Index) (reopened : Bool) : State :=
  let s := if reopened then s.setNacks d 0 else s
  let s := s.countNack d
  if s.layout.params.retries < (s.record d).nacks ∧ !s.isSilent d then s.enterSilent d own .retryExhausted .noAnswer
  else s

/-- R48, R49, R61, R64: an address NACK met by the commit transaction of buffer `n`: a busy device defers it, an
IMMEDIATE device counts it and, unless it has become SILENT, has it re-run. -/
def State.commitNacked (s : State) (n d : Index) (reopened : Bool) : State :=
  if s.isImmediate d then (s.nackImmediate d (some n) reopened |> fun s =>
    if (s.bufferState n).committing then s.joinRequest n else s)
  else s.busyNack d

/-- R66, R52: the runs of buffer `n` left at the end of a write cycle or of a run of an IMMEDIATE device: its next run
joins the request list in COMMIT, or its commit ends. -/
def State.runsGoOn (s : State) (n : Index) (forced : Bool) (runs : List Run) : State :=
  if runs.isEmpty then s.commitEnds n
  else (s.updateHold n fun h => { h with phase := .commit forced runs }).joinRequest n

end Sys2Proof.Machine
end

