-- ==== Sys2Proof/Machine/BusEngine.lean ====
section
/-! DEFINITION. The Two-Wire Bus Engine and the arbiter: the choice of a grant and the grant (R116, R117), the bus
leaving OWNED (R107, R108), entry to STUCK (R122), and the attempts of the layout record read (R167). -/

namespace Sys2Proof.Machine

/-! ### The layout record read (R167) -/

/-- R167: the record read fails; the step that ends it installs or keeps a layout (R168, R170). -/
def State.failRecordRead (s : State) : State :=
  s.setRecordRead (s.control.recordRead.map fun r => { r with nextAttempt := none, failed := true })

/-- R115, R167: the record read is presented; a STUCK bus answers it at once. -/
def State.presentRecordRead (s : State) : State := if s.isStuck then s.failRecordRead else s.present .recordRead

/-- R167: the record read counts one retry, or fails at the limit. -/
def State.retryRecordRead (s : State) : State :=
  match s.control.recordRead with
  | none => s
  | some r =>
    if r.retries < s.layout.params.retries then
      (s.setRecordRead (some { r with retries := r.retries + 1 })).presentRecordRead
    else s.failRecordRead

/-- R167: an attempt of the record read has met an address NACK. -/
def State.nackRecordRead (s : State) : State :=
  s.setRecordRead (s.control.recordRead.map fun r =>
    { r with firstNack := some (r.firstNack.getD s.now), nextAttempt := some (s.deadline Config.attemptInterval) })

/-- R171: a record read in progress is dropped: a request not yet granted is withdrawn, a transaction in flight runs to
an outcome that is discarded. -/
def State.dropRecordRead (s : State) : State :=
  let s := s.withdraw fun q => q == .recordRead
  let s := s.setBus fun b => { b with
    transaction := b.transaction.map fun t => if t.job = .recordRead false then { t with job := .recordRead true } else t }
  s.setRecordRead none

/-! ### The arbiter (R116, R117) -/

/-- R116: what a grant goes to. -/
inductive Grant where
  | hostRead (q : HostReadRequest)
  | probe
  | commit
  | direct
  deriving DecidableEq, Repr

/-- R116: of the commit and the direct request, the one not granted last. -/
def GrantMark.other : GrantMark → Grant
  | .commit => .direct
  | .direct => .commit

/-- R116: the commit or direct request, by the last-granted mark when both are asked for. -/
def turn (mark : GrantMark) (commit direct : Bool) : Option Grant :=
  if commit && direct then some mark.other else if commit then some .commit else if direct then some .direct else none

/-- R116: the request that the next grant goes to. -/
def State.choose (s : State) : Option Grant :=
  let promoted := turn s.bus.lastGranted (s.commitWaits && s.bus.passCommit == Config.passLimit)
    (s.directWaits && s.bus.passDirect == Config.passLimit)
  match promoted with
  | some g => some g
  | none =>
    match s.bus.hostReads with
    | q :: _ => some (.hostRead q)
    | [] => if s.probeWaits then some .probe else turn s.bus.lastGranted s.commitWaits s.directWaits

/-- R117: a pass count after a grant to the host-read class. -/
def passAfter (waits : Bool) (count : Nat) : Nat := if waits then min Config.passLimit (count + 1) else 0

/-- R116, R117: the pass counts and the last-granted mark after a grant. -/
def State.countGrant (s : State) (g : Grant) : State :=
  match g with
  | .hostRead _ => s.setBus fun b =>
      { b with passCommit := passAfter s.commitWaits b.passCommit, passDirect := passAfter s.directWaits b.passDirect }
  | .probe => s.setBus fun b => { b with passCommit := 0, passDirect := 0 }
  | .commit => s.setBus fun b => { b with passCommit := 0, passDirect := 0, lastGranted := .commit }
  | .direct => s.setBus fun b => { b with passCommit := 0, passDirect := 0, lastGranted := .direct }

/-- R109: the transaction of a job begins in its first phase, in the direction `read`, with `toSend` to send after its
address byte. -/
def State.beginTransaction (s : State) (job : Job) (target : BitVec 7) (read : Bool) (remaining : Option Nat)
    (toSend : List Byte) : State :=
  let t : Transaction := ⟨job, target, read, .open, 0, remaining, toSend, []⟩
  s.setBus fun b => { b with transaction := some t, wire := none }

/-- The request at the head of the host-read class leaves the arbiter. -/
def State.popHostRead (s : State) : State := s.setBus fun b => { b with hostReads := b.hostReads.tail }

/-- R51: the due probe with the earliest next-probe time, the lowest-numbered device on equal times. -/
def State.earliestProbe (s : State) : Option Index :=
  greatestBy (fun d => ((s.record d).status.probe.map fun p => p.next.time.elapsed s.now).getD 0)
    (allIndices.filter s.probeDue)

/-- The probe timer of device `d` marked due or not. -/
def State.setDue (s : State) (d : Index) (due : Bool) : State :=
  match (s.record d).status.probe with
  | some p => s.setStatus d ((s.record d).status.withProbe { p with due := due })
  | none => s

/-- R8: the target address of the page of `h`. -/
def State.pageTarget (s : State) (h : PageHold) : BitVec 7 := (s.device h.device).targetOf (s.pageStartOf h)

/-- R59: the positions the fill of a buffer reads: the whole page in a checked window, else the written span. -/
def State.fillSpan (s : State) (h : PageHold) : Run :=
  if s.isChecked h.device h.page then { first := 0, count := s.pageSizeOf h } else writtenSpan h.written (s.pageSizeOf h)

/-- R59, R63, R94: the memory address bytes of position `p` of the page of `h`. -/
def State.pageAddress (s : State) (h : PageHold) (p : Nat) : List Byte :=
  (s.device h.device).addressOf (s.pageStartOf h + p)

/-- R59, R63: the image's bytes at the positions of a run, in ascending order. -/
def Image.runBytes (im : Image) (r : Run) : List Byte := (List.range r.count).map fun i => im.byte (r.first + i)

/-- R63, R59: the commit transaction at the head of the request list is granted, with the bytes it sends; a write run
hands its device to the Read Path first. -/
def State.grantCommit (s : State) (n : Index) : State :=
  let s := s.setRequests s.engine.requests.tail
  match (s.buffer n).hold with
  | none => s
  | some h =>
    match h.phase with
    | .fill _ =>
      let span := s.fillSpan h
      s.beginTransaction (.fill n) (s.pageTarget h) false (some span.count) (s.pageAddress h span.first)
    | .commit _ runs =>
      let run := runs.headD { first := 0, count := 0 }
      (s.emptyAheadOf h.device).beginTransaction (.run n) (s.pageTarget h) false (some run.count)
        (s.pageAddress h run.first ++ (s.buffer n).image.runBytes run)
    | _ => s

/-- R77: a stream open at offset `x` of device `d` is granted. The read that waits for it leaves its wait and is given the
byte at `x`; its byte is not asked of forwarding anew (DESIGN CHOICE, log entry 44). -/
def State.grantStream (s : State) (d : Index) (x : Nat) : State :=
  let s := s.popHostRead
  let p : StreamPos := { device := d, next := x, last := (s.device d).lastOffset x }
  let s := s.setReads { stream := .opening p, ahead := .empty, dropsAhead := false }
  let s := match s.readRecord with
    | some r => if r.wait == ReadWait.bus then s.setRead { r with wait := .none } else s
    | none => s
  s.beginTransaction .stream ((s.device d).targetOf x) false none ((s.device d).addressOf x)

/-- R94: the VERIFY read of buffer `n` is granted; the read that waits for it leaves its wait, its byte not asked of
forwarding anew (DESIGN CHOICE, log entry 44). -/
def State.grantVerify (s : State) (n : Index) : State :=
  let s := s.popHostRead
  let s := match s.verifyReader n with
    | some r => if r.wait == ReadWait.bus then s.setRead { r with wait := .none } else s
    | none => s
  match (s.buffer n).hold with
  | some h => s.beginTransaction (.verify n) (s.pageTarget h) false (some (s.pageSizeOf h)) (s.pageAddress h 0)
  | none => s

/-- R51: the probe request is granted; the due probe with the earliest next-probe time is sent. -/
def State.grantProbe (s : State) : State :=
  match s.earliestProbe with
  | some d => (s.setDue d false).beginTransaction (.probe d) (s.device d).target false none []
  | none => s

/-- R131: the direct request is granted: the slot is RUNNING at step 1. -/
def State.grantDirect (s : State) : State :=
  match s.slot.state with
  | .waiting steps outLength _ retries =>
    let s := s.setSlot (.running steps outLength 0 retries 1 0 false)
    match steps.head? with
    | some (.open t read) => s.beginTransaction .sequence t read none []
    | some (.send _ _) | some (.receive _ _) | some .close | none => s.beginTransaction .sequence 0#7 false none []
  | .empty | .running _ _ _ _ _ _ _ | .finished _ _ _ _ => s

/-- R116: the grant of `g` at its requester. -/
def State.grantTo (s : State) (g : Grant) : State :=
  match g with
  | .hostRead (.streamOpen d x) => s.grantStream d x
  | .hostRead (.verify n) => s.grantVerify n
  | .hostRead .recordRead =>
    s.popHostRead.beginTransaction (.recordRead false) s.control.bootTarget false (some Config.recordLength)
      (List.replicate s.control.bootBytes 0#8)
  | .probe => s.grantProbe
  | .commit =>
    match s.engine.requests with
    | n :: _ => s.grantCommit n
    | [] => s
  | .direct => s.grantDirect

/-- R116, R117, R121: the grant of `g`, with the bus OWNED, or CLEARING for the grant. -/
def State.grant (s : State) (g : Grant) (status : BusStatus) : State :=
  let s := (s.countGrant g).grantTo g
  s.setBus fun b => { b with status := status, idleHigh := none, heldData := none, freeAt := none }

/-! ### Leaving OWNED (R107, R108) -/

/-- R107, R108, R123: the bus becomes FREE. -/
def Bus.becomeFree (b : Bus) : Bus :=
  { b with status := .free, wire := none, freeAt := none, heldData := none, nextCheck := none, watch := none }

/-- R107, R108, R119: the bus becomes FOREIGN with the lines as they stand. With SDA low already, the held-data start is
this entry (DESIGN CHOICE, log entry 37). -/
def Bus.becomeForeign (b : Bus) : Bus :=
  { b with status := .foreign, wire := none, freeAt := none, idleHigh := if b.scl && b.sda then b.idleHigh else none
           heldData := if b.scl && !b.sda then some b.timer else none }

/-! ### STUCK (R122) -/

/-- R58: the commit transaction of buffer `n` returns to the head of the request list. -/
def State.requeueHead (s : State) (n : Index) : State := s.setRequests (n :: s.engine.requests)

/-- R58, R85, R97, R134, R167: the outcome STUCK of the granted transaction, at its requester. -/
def State.stuckOutcome (s : State) (j : Job) : State :=
  match j with
  | .run n | .fill n => s.requeueHead n
  | .verify n => s.endVerify n fun s _ => s.refuse none
  | .stream => s.streamFails fun s _ => s.refuse none
  | .recordRead false => s.failRecordRead
  | .recordRead true => s
  | .probe d => s.setDue d true
  | .sequence => s.finishUnbegun .stuck

/-- R85, R97, R167: the answer STUCK to a host-read request, at its requester. -/
def State.stuckAnswer (s : State) (q : HostReadRequest) : State :=
  match q with
  | .streamOpen _ _ =>
    match s.readRecord with
    | some r => if r.wait == ReadWait.bus then s.refuse none else s
    | none => s
  | .verify n => s.endVerify n fun s _ => s.refuse none
  | .recordRead => s.failRecordRead

/-- R122: the fault BUS_STUCK with the line it names. -/
def stuckFault (line : Line) : FaultInfo :=
  { kind := .busStuck, device := none, window := none, buffer := none, place := none
    detail := match line with
      | .scl => 0x01#8
      | .sda => 0x02#8 }

/-- R122: the bus record at entry to STUCK. -/
def State.stickBus (s : State) : State :=
  s.setBus fun b =>
    { b with status := .stuck, nextCheck := some (s.deadline Config.stuckRecheck), transaction := none, wire := none
             hostReads := [], freeAt := none, heldData := none, awaitRise := false, clear := none, watch := none }

/-- R122: the bus becomes STUCK: counted and logged, the granted transaction and every request answered STUCK
(DEDUCED, log entry 28: a VERIFY that waits for its device has no request). The access that waits for a buffer or its device
is refused at this event, before the buffers that the answers free (R26, R37, R71). -/
def State.enterStuck (s : State) (line : Line) : State :=
  let job := s.job
  let asked := s.bus.hostReads
  let s := (s.countEvent .busStuck).logFault (stuckFault line)
  let s := s.stickBus.testWaiting
  let s := match job with
    | some j => s.stuckOutcome j
    | none => s
  let s := asked.foldl State.stuckAnswer s
  if s.directWaits then s.finishUnbegun .stuck else s

end Sys2Proof.Machine
end

