-- ==== Sys2Proof/Machine/Settle.lean ====
section
/-! DEFINITION. What every command ends with: the consequences that the spec takes at whatever event makes their
condition true (R26, R37, R71, R117, R118, R171), in the order of R162; and the Mode Controller's shared operations
(R168, R170 to R173). -/

namespace Sys2Proof.Machine

/-! ### The Mode Controller -/

/-- R171: the fault RELOAD_ABANDONED (DEDUCED, log entry 9: window and place absent). -/
def abandonFault (detail : Byte) (device buffer : Option Index) : FaultInfo :=
  { kind := .reloadAbandoned, detail := detail, device := device, window := none, buffer := buffer, place := none }

/-- R140, R162, R171: a buffer has entered HELD in RELOADING: the reload is abandoned for RUNNING, the access with hold
MODE is dispatched, and the fault, which comes last, names the lowest-numbered buffer. -/
def State.abandonIfHeld (s : State) : State :=
  if s.control.mode.isReloading then
    match s.lowest .held with
    | some n =>
      let fault := abandonFault 0x00#8 (s.deviceOf n) (some n)
      let s := s.dropRecordRead.setMode .running
      (if s.heldByMode then s.leaveModeHold else s).logFault fault
    | none => s
  else s

/-- R170: the drain of a reload is done. -/
def State.drained (s : State) : Bool :=
  s.table.queue.isEmpty && allIndices.all fun n =>
    !((s.bufferState n).committing || s.bufferState n == .verify)

/-- R170: the entry to READING: the read-ahead queue is emptied, every CLEAN buffer freed, the record read presented. -/
def State.enterReading (s : State) : State :=
  let s := (s.setMode (.reloading .reading)).demandEmpty.cleanRelease
  (s.setRecordRead (some { retries := 0, firstNack := none, nextAttempt := none, failed := false })).presentRecordRead

/-- R170: SEQUENCE is left for READING when the slot is EMPTY or FINISHED. -/
def State.leaveSequence (s : State) : State := if s.slot.state.abortable then s else s.enterReading

/-- R170: a reload leaves the stages whose conditions hold. -/
def State.advanceReload (s : State) : State :=
  match s.control.mode with
  | .reloading .draining => if s.drained then (s.setMode (.reloading .sequence)).leaveSequence else s
  | .reloading .sequence => s.leaveSequence
  | .reloading .reading | .starting | .running | .flushing | .safe => s

/-- R173: nothing is in flight and the slot is not RUNNING. -/
def State.flushDrained (s : State) : Bool :=
  allIndices.all (fun n => !(s.bufferState n).working) && !s.slot.state.isRunning

/-- R168, R173: the mode becomes SAFE and SAFE_REACHED is counted. -/
def State.enterSafe (s : State) : State := (s.setMode .safe).countEvent .safeReached

/-- R173: a flush that has drained ends in SAFE, or in RUNNING when PFW# is high. -/
def State.endFlush (s : State) : State :=
  if s.control.mode = .flushing ∧ s.flushDrained then if s.control.pfw then s.setMode .running else s.enterSafe
  else s

/-- R38: the flush watch is done: FLUSH_DONE is counted and the watch cleared, on a STUCK bus too when nothing is queued or
in flight (DESIGN CHOICE, log entry 32). -/
def State.endFlushWatch (s : State) : State :=
  if s.table.flushWatch && s.table.queue.isEmpty && allIndices.all (fun n => !(s.bufferState n).committing) then
    { s with table := { s.table with flushWatch := false } }.countEvent .flushDone
  else s

/-- R6, R47, R161: a layout is installed whole: the tables and parameters, the mask, the Device Status Table. -/
def State.install (s : State) (l : Layout) (source : LayoutSource) : State :=
  { s with
    layout := l
    engine := { s.engine with devices := Vector.replicate 8 .initial }
    events := { s.events with mask := l.params.eventMask }
    control := { s.control with source := some source, recordRead := none } }

/-- R168, R170: a rejection is logged and counted. -/
def State.rejectLayout (s : State) (x : Rejection) : State :=
  (s.logFault { kind := .layoutRejected, detail := x.detail, device := none, window := none, buffer := none, place := none }).countEvent
    .layoutRejected

/-- R168, R170: what the end of a record read gives: a record accepted, or a rejection. -/
def recordOutcome (failed : Bool) (bytes : List Byte) : Option Rejection :=
  if failed then some .recordUnreadable else validate bytes

/-- R167, R168, R170: whether the record read ends at this step: it has failed, or its transaction receives the 144
bytes, those handed over before and `bytes` (R111). -/
def State.recordReadEnds (s : State) (bytes : List Byte) : Bool :=
  s.control.recordRead.any fun r =>
    r.failed || (s.onBus (.recordRead false) && (s.handed ++ bytes).length == Config.recordLength && s.fitsSampled bytes)

/-- R111: the transaction of a record read that completes is closed; a failed read has none. -/
def State.closeRecordRead (s : State) : State := if s.onBus (.recordRead false) then s.closeTransaction else s

/-- Whether the record read in progress has failed. -/
def State.recordFailed (s : State) : Bool := s.control.recordRead.any (·.failed)

/-! ### The end of every command -/

/-- R117: the pass count of a class with no request waiting is 0. -/
def State.clearPasses (s : State) : State :=
  s.setBus fun b =>
    { b with passCommit := if s.commitWaits then b.passCommit else 0
             passDirect := if s.directWaits then b.passDirect else 0 }

/-- The end of every command: the tests of a waiting access (R26, R37, R71), the abandonment of a reload (R171), the
close demand on a PARKED stream (R80, R118), the pass counts (R117). DEDUCED, log entry 6. -/
def State.settle (s : State) : State := s.testWaiting.abandonIfHeld.parkedCloses.clearPasses

/-- The outcome of a command that has its effect. -/
def done (s : State) : Host.Outcome State Fault Refusal := .next s.settle

/-- The outcome of a command whose event cannot occur in this state: nothing changes
(DESIGN CHOICE, log entry 2). -/
def nothing (s : State) : Host.Outcome State Fault Refusal := .next s

end Sys2Proof.Machine
end

