-- ==== Sys2Proof/Machine/Service.lean ====
section
/-! DEFINITION. The Service Port: frames and the edges of SCK (R146 to R149), what each command does (R152 and the rules it
names), the command that a code names (R147), taking a command (R150, R151), and the meanings of the port's rows. -/

namespace Sys2Proof.Machine

/-! ### Frames -/

/-- The state with the frame record replaced. -/
def State.setFrame (s : State) (f : Frame) : State := { s with service := { s.service with frame := f } }

/-- R148: the argument bytes that SUBMIT SEQUENCE takes, fixed at the second one; 2 before it has come (DESIGN CHOICE, log
entry 41). -/
def submissionLength (args : List Byte) : Nat :=
  match args with
  | count :: out :: _ =>
    if 1 ≤ count.toNat ∧ count.toNat ≤ 16 ∧ out.toNat ≤ 32 then 2 + 2 * count.toNat + out.toNat else 2
  | _ => 2

/-- R147, R148: the argument bytes that the command of a code takes. -/
def expectedLength (code : Byte) (args : List Byte) : Nat :=
  if code = 0x03#8 then 16
  else if code = 0x04#8 ∨ code = 0x06#8 then 2
  else if code = 0x07#8 ∨ code = 0x09#8 ∨ code = 0x0A#8 ∨ code = 0x0B#8 then 1
  else if code = 0x0C#8 then submissionLength args
  else 0

/-- R146: the bit count of a frame. -/
def Frame.bitCount (f : Frame) : Nat :=
  match f with
  | .idle => 0
  | .command bits | .arguments _ _ _ bits => bits.length
  | .answering _ _ _ bits _ _ _ => bits

/-- R147: the byte that follows `k` bytes after a command was taken: the reply status, then the response, then 00h. -/
def sdoByte (reply : Reply) (response : List Byte) (k : Nat) : Byte := (reply.code :: response).getD k 0#8

/-- R146, R147: the bit that a frame puts on SDO, with SCK at `sck`. It changes at a falling edge, so that after a rising
edge it is still the bit that the edge sampled. While the command and its arguments are clocked in it is a bit of 00h; with
SCS# low and no frame in progress too (DESIGN CHOICE, log entry 42). -/
def Frame.sdoBit (f : Frame) (sck : Bool) : Bool :=
  match f with
  | .answering _ _ _ bits reply response shifted =>
    let sampled := 8 * shifted + bits
    if sck then sampled != 0 && sentBit (sdoByte reply response ((sampled - 1) / 8)) ((sampled - 1) % 8)
    else sentBit (sdoByte reply response shifted) bits
  | .idle | .command _ | .arguments _ _ _ _ => false

/-- R146: the level of SDO, driven while SCS# is low; absent while it is released. -/
def State.sdo (s : State) : Option Bool :=
  if s.service.scs then none else some (s.service.frame.sdoBit s.service.sck)

/-- FRAME_BEGIN (R146): a falling edge of SCS# in IDLE. In mode 0 SCK is low then (log entry 16). -/
def execFrameBegin (s : State) : Host.Outcome State Fault Refusal :=
  if s.service.scs ∧ s.service.frame = .idle then
    done { s with service := { frame := .command [], scs := false, sck := false } }
  else nothing s

/-- FRAME_END (R149): a rising edge of SCS#. -/
def execFrameEnd (s : State) : Host.Outcome State Fault Refusal :=
  if s.service.scs then nothing s else done { s with service := { s.service with frame := .idle, scs := true } }

/-! ### What the commands do -/

/-- What a command gives when it is taken: the reply status, the response and the state it leaves. -/
structure Taken where
  reply : Reply
  response : List Byte
  state : State

/-- A command that is refused, and changes nothing (R151). -/
def declined (reply : Reply) (s : State) : Taken := { reply := reply, response := [], state := s }

/-- A command that is taken, with no response. -/
def taken (s : State) : Taken := { reply := .ok, response := [], state := s }

/-- A command that is taken and reports. -/
def reports (response : List Byte) (s : State) : Taken := { reply := .ok, response := response, state := s }

/-- GET STATUS (R153). -/
def State.getStatus (s : State) : Taken := reports s.statusReport s

/-- GET EVENTS (R154). -/
def State.getEvents (s : State) : Taken := reports s.events.report s

/-- ACKNOWLEDGE EVENTS (R160): the report shows the counts as the reduction left them. -/
def State.acknowledge (figures : List Byte) (s : State) : Taken :=
  let e := s.events.acknowledge figures
  reports e.report { s with events := e }

/-- R176: two argument bytes as one field, the high byte first. -/
def pairOf (args : List Byte) : Half := args.getD 0 0#8 ++ args.getD 1 0#8

/-- SET EVENT MASK (R161). -/
def State.setMask (mask : Half) (s : State) : Taken := taken { s with events := { s.events with mask := mask } }

/-- PEEK FAULT (R154, R164). -/
def State.peekFault (s : State) : Taken := reports s.events.peek s

/-- R164: the head of the log is dropped when its number is the one given. -/
def State.dropFault (s : State) (number : Half) : Taken :=
  match s.events.log with
  | r :: rest => if r.number = number then taken { s with events := { s.events with log := rest } } else declined .wrongState s
  | [] => declined .wrongState s

/-- R152: the buffer that the operand n names; n above 7 names none. -/
def operandIndex (args : List Byte) : Option Index :=
  let n := (args.getD 0 0#8).toNat
  if h : n < 8 then some ⟨n, h⟩ else none

/-- R152: a command with operand n: BAD_ARGUMENT for n above 7. -/
def onBuffer (act : Index → State → Taken) (args : List Byte) (s : State) : Taken :=
  match operandIndex args with
  | some n => act n s
  | none => declined .badArgument s

/-- GET BUFFER n (R155). -/
def State.getBuffer (n : Index) (s : State) : Taken := reports (s.bufferReport n) s

/-- GET LAYOUT (R156). -/
def State.getLayout (s : State) : Taken := reports s.layoutReport s

/-- FLUSH (R38): every GATHER buffer is sealed and the flush watch set; it ends at once if its condition holds. -/
def State.flush (s : State) : Taken :=
  let s := s.sealAll
  taken { s with table := { s.table with flushWatch := true } }.endFlushWatch

/-- R39: buffer `n` is given up. -/
def State.release (n : Index) (s : State) : Taken :=
  if s.bufferState n = .held then taken (s.freeBuffer n).select else declined .wrongState s

/-- R40, R103: whether the device of buffer `n` is not SILENT and the mode is not SAFE. -/
def State.mayReissue (s : State) (n : Index) : Bool :=
  (s.deviceOf n).any (fun d => !s.isSilent d) && s.control.mode != .safe

/-- R40, R103: what a HELD buffer's page fields become when it is queued again. -/
def PageHold.requeued (forced : Bool) (h : PageHold) : PageHold :=
  { h with source := h.written, retries := 0, phase := .sealed forced }

/-- R40, R103: buffer `n` is SEALED at the head of the commit queue. -/
def State.requeue (s : State) (n : Index) (forced : Bool) : State :=
  let s := s.updateHold n (PageHold.requeued forced)
  (s.setQueue (n :: s.table.queue)).select

/-- R40: REISSUE of buffer `n`. -/
def State.reissue (n : Index) (s : State) : Taken :=
  if s.bufferState n = .held ∧ s.mayReissue n then taken (s.requeue n false) else declined .wrongState s

/-- R103: whether buffer `n` is HELD with the cause CHECK_MISMATCH. -/
def State.heldForMismatch (s : State) (n : Index) : Bool :=
  (s.buffer n).hold.any fun h => h.phase == .held .checkMismatch

/-- R103: FORCE of buffer `n`. -/
def State.force (n : Index) (s : State) : Taken :=
  if s.heldForMismatch n ∧ s.mayReissue n then taken (s.requeue n true) else declined .wrongState s

/-- R128: the modes in which a submission is refused. -/
def Mode.refusesSubmission : Mode → Bool
  | .reloading _ | .flushing | .safe => true
  | .starting | .running => false

/-- R128: the out area of a submission: the bytes after the steps, 00h above them. -/
def submittedArea (args : List Byte) : Vector Byte 32 :=
  let out := (args.drop (2 + 2 * (args.getD 0 0#8).toNat)).take (args.getD 1 0#8).toNat
  Vector.ofFn fun i : Fin 32 => out.getD i.val 0#8

/-- R128: a submission that passes is taken into the slot; a STUCK bus answers its request at once. -/
def State.takeSubmission (s : State) (steps : List SeqStep) (args : List Byte) : State :=
  let s := { s with slot :=
    { state := .waiting steps (args.getD 1 0#8).toNat 0 0, outArea := submittedArea args
      inArea := Vector.replicate 32 0#8 } }
  if s.isStuck then s.finishUnbegun .stuck else s

/-- R128 to R130: a submission is tested for the mode, the slot and its own validity. -/
def State.submit (args : List Byte) (s : State) : Taken :=
  if s.control.mode.refusesSubmission then declined .wrongState s
  else if s.slot.state.abortable then declined .busy s
  else
    match readSubmission s.layout args with
    | .error reply => declined reply s
    | .ok steps => taken (s.takeSubmission steps args)

/-- R136: the result of a FINISHED slot. -/
def State.sequenceResult (s : State) : Taken :=
  match s.slot.state with
  | .finished _ _ _ result => reports result.report s
  | .empty | .waiting _ _ _ _ | .running _ _ _ _ _ _ _ => declined .wrongState s

/-- ABORT SEQUENCE (R135). -/
def State.abortSequence (s : State) : Taken := if s.slot.state.abortable then taken s.abortSlot else declined .wrongState s

/-- R169: the reload begins: RELOADING in DRAINING, seal all, the hand-back, and the stages whose conditions hold
(R170). -/
def State.beginReload (s : State) : State := ((s.setMode (.reloading .draining)).sealAll.handBack).advanceReload

/-- R169: RELOAD LAYOUT is tested against the mode, then against the buffers. -/
def State.reload (s : State) : Taken :=
  if s.control.mode ≠ .running then declined .wrongState s
  else if (s.lowest .held).isSome then declined .heldPresent s
  else taken s.beginReload

/-! ### The command that a code names -/

/-- R147: the sixteen commands. -/
inductive ServiceCommand where
  | getStatus
  | getEvents
  | acknowledgeEvents
  | setEventMask
  | peekFault
  | dropFault
  | getBuffer
  | flush
  | release
  | reissue
  | force
  | submitSequence
  | getSequenceResult
  | abortSequence
  | reloadLayout
  | getLayout
  deriving DecidableEq, Repr

/-- R147: the command of a code, 01h to 10h. -/
def ServiceCommand.ofCode (code : Byte) : Option ServiceCommand :=
  match code.toNat with
  | 0x01 => some .getStatus
  | 0x02 => some .getEvents
  | 0x03 => some .acknowledgeEvents
  | 0x04 => some .setEventMask
  | 0x05 => some .peekFault
  | 0x06 => some .dropFault
  | 0x07 => some .getBuffer
  | 0x08 => some .flush
  | 0x09 => some .release
  | 0x0A => some .reissue
  | 0x0B => some .force
  | 0x0C => some .submitSequence
  | 0x0D => some .getSequenceResult
  | 0x0E => some .abortSequence
  | 0x0F => some .reloadLayout
  | 0x10 => some .getLayout
  | _ => none

/-- R152: a command takes its own tests and effect, with the argument bytes `args`. -/
def ServiceCommand.act (c : ServiceCommand) (args : List Byte) (s : State) : Taken :=
  match c with
  | .getStatus => s.getStatus
  | .getEvents => s.getEvents
  | .acknowledgeEvents => State.acknowledge args s
  | .setEventMask => State.setMask (pairOf args) s
  | .peekFault => s.peekFault
  | .dropFault => s.dropFault (pairOf args)
  | .getBuffer => onBuffer State.getBuffer args s
  | .flush => s.flush
  | .release => onBuffer State.release args s
  | .reissue => onBuffer State.reissue args s
  | .force => onBuffer State.force args s
  | .submitSequence => State.submit args s
  | .getSequenceResult => s.sequenceResult
  | .abortSequence => s.abortSequence
  | .reloadLayout => s.reload
  | .getLayout => s.getLayout

/-! ### Taking a command -/

/-- R146: the bits sampled so far can be the first ones of the byte `v`, whose eighth edge has not come. -/
def begins (bits : List Bool) (v : Byte) : Bool := bits.length < 8 && bits.isPrefixOf (sentBits v)

/-- R146, R147: the command byte and the argument bytes held once `bytes` have been received in the frame, the first of
which completes the bits sampled so far; `none` where no frame takes them. -/
def Frame.gather (f : Frame) (bytes : List Byte) : Option (Byte × List Byte) :=
  match f, bytes with
  | .command bits, code :: args => if begins bits code then some (code, args) else none
  | .arguments code held _ bits, v :: _ => if begins bits v then some (code, held ++ bytes) else none
  | .command _, [] | .arguments _ _ _ _, [] | .idle, _ | .answering _ _ _ _ _ _ _, _ => none

/-- R147, R151: what the command of a code byte gives, by the three tests in their order. -/
def State.answerTo (s : State) (code : Byte) (args : List Byte) : Taken :=
  match ServiceCommand.ofCode code with
  | none => declined .unknown s
  | some c => if s.control.mode = .starting ∧ c ≠ .getStatus then declined .notReady s else c.act args s

/-- R150, R151: the command of a code is taken with the arguments `args`. -/
def State.takeCommand (s : State) (code : Byte) (args : List Byte) : State :=
  let t := s.answerTo code args
  t.state.setFrame (.answering code args args.length 0 t.reply t.response 0)

/-- R146: a rising edge has come last. -/
def State.sckHigh (s : State) : State := { s with service := { s.service with sck := true } }

/-- R146, R147: what a rising edge of SCK leads to: the frame goes on, or the command of the code received is taken. -/
inductive Sampled where
  | goesOn (f : Frame)
  | takes (code : Byte) (args : List Byte)
  deriving DecidableEq, Repr

/-- R147, R150: with the command byte and the argument bytes `held` received, the command waits for a further argument byte
or is taken. Bytes past the last one it takes are ignored (R147). -/
def Sampled.ofBytes (code : Byte) (held : List Byte) : Sampled :=
  let expected := expectedLength code held
  if held.length < expected then .goesOn (.arguments code held expected []) else .takes code (held.take expected)

/-- R146, R150: the effect of a rising edge, that of the command taken included. -/
def State.afterEdge (s : State) (x : Sampled) : State :=
  match x with
  | .goesOn f => (s.setFrame f).sckHigh
  | .takes code args => (s.takeCommand code args).sckHigh

/-- R146, R147, R150: `bytes` are received in the frame: the first byte of a frame picks its command, and its last
argument byte takes it. -/
def State.receiveBytes (s : State) (bytes : List Byte) : Host.Outcome State Fault Refusal :=
  match s.service.frame.gather bytes with
  | none => nothing s
  | some (code, held) => done (s.afterEdge (.ofBytes code held))

/-- R146: the row of a code with the argument bytes `args`: in COMMAND its command byte is received before them. -/
def State.receive (s : State) (code : Byte) (args : List Byte) : Host.Outcome State Fault Refusal :=
  match s.service.frame with
  | .command _ => s.receiveBytes (code :: args)
  | .arguments held _ _ _ => if held = code then s.receiveBytes args else nothing s
  | .idle | .answering _ _ _ _ _ _ _ => nothing s

/-! ### The edges of SCK (R146) -/

/-- R146, R147: a rising edge that samples `sdi`: the eighth one completes a byte, which picks the command by its code or is
one of its arguments, and the last byte takes it. In ANSWERING the bit is ignored. -/
def Frame.sample (f : Frame) (sdi : Bool) : Sampled :=
  match f with
  | .idle => .goesOn .idle
  | .command bits =>
    if bits.length < 7 then .goesOn (.command (bits ++ [sdi])) else .ofBytes (arrivedByte (bits ++ [sdi])) []
  | .arguments code args expected bits =>
    if bits.length < 7 then .goesOn (.arguments code args expected (bits ++ [sdi]))
    else .ofBytes code (args ++ [arrivedByte (bits ++ [sdi])])
  | .answering code args expected bits reply response shifted =>
    .goesOn (.answering code args expected ((bits + 1) % 8) reply response (shifted + (bits + 1) / 8))

/-- R146: an edge of SCK, which SCS# high keeps from the frame; SDO follows the falling edge (`Frame.sdoBit`). An edge that
cannot come changes nothing; one that takes a command ends as the row of that command does. That the tick brings the edges
is a DESIGN CHOICE (log entry 16). -/
def State.sckEdge (s : State) (e : SckEdge) : State :=
  match e with
  | .fall => { s with service := { s.service with sck := false } }
  | .rise sdi =>
    if s.service.sck then s
    else if s.service.scs then s.sckHigh
    else
      match s.service.frame.sample sdi with
      | .goesOn f => s.afterEdge (.goesOn f)
      | .takes code args => (s.afterEdge (.takes code args)).settle

/-! ### The rows -/

/-- UNKNOWN_COMMAND (R147, R151): a code outside 01h to 10h, answered before the mode is tested. -/
def execUnknownCommand (code : Byte) (s : State) : Host.Outcome State Fault Refusal :=
  if (ServiceCommand.ofCode code).isNone then s.receive code [] else nothing s

/-- GET_STATUS (R153): answered in every mode. -/
def execGetStatus (s : State) : Host.Outcome State Fault Refusal := s.receive 0x01#8 []

/-- GET_EVENTS (R154). -/
def execGetEvents (s : State) : Host.Outcome State Fault Refusal := s.receive 0x02#8 []

/-- ACKNOWLEDGE_EVENTS (R160). -/
def execAcknowledgeEvents (args : List Byte) (s : State) : Host.Outcome State Fault Refusal := s.receive 0x03#8 args

/-- SET_EVENT_MASK (R161). -/
def execSetEventMask (args : List Byte) (s : State) : Host.Outcome State Fault Refusal := s.receive 0x04#8 args

/-- PEEK_FAULT (R154, R164). -/
def execPeekFault (s : State) : Host.Outcome State Fault Refusal := s.receive 0x05#8 []

/-- DROP_FAULT (R164). -/
def execDropFault (args : List Byte) (s : State) : Host.Outcome State Fault Refusal := s.receive 0x06#8 args

/-- GET_BUFFER (R155). -/
def execGetBuffer (args : List Byte) (s : State) : Host.Outcome State Fault Refusal := s.receive 0x07#8 args

/-- FLUSH (R38). -/
def execFlush (s : State) : Host.Outcome State Fault Refusal := s.receive 0x08#8 []

/-- RELEASE (R39). -/
def execRelease (args : List Byte) (s : State) : Host.Outcome State Fault Refusal := s.receive 0x09#8 args

/-- REISSUE (R40). -/
def execReissue (args : List Byte) (s : State) : Host.Outcome State Fault Refusal := s.receive 0x0A#8 args

/-- FORCE (R103). -/
def execForce (args : List Byte) (s : State) : Host.Outcome State Fault Refusal := s.receive 0x0B#8 args

/-- SUBMIT_SEQUENCE (R128 to R130). -/
def execSubmitSequence (args : List Byte) (s : State) : Host.Outcome State Fault Refusal := s.receive 0x0C#8 args

/-- GET_SEQUENCE_RESULT (R136). -/
def execGetSequenceResult (s : State) : Host.Outcome State Fault Refusal := s.receive 0x0D#8 []

/-- ABORT_SEQUENCE (R135). -/
def execAbortSequence (s : State) : Host.Outcome State Fault Refusal := s.receive 0x0E#8 []

/-- RELOAD_LAYOUT (R169). -/
def execReloadLayout (s : State) : Host.Outcome State Fault Refusal := s.receive 0x0F#8 []

/-- GET_LAYOUT (R156). -/
def execGetLayout (s : State) : Host.Outcome State Fault Refusal := s.receive 0x10#8 []

end Sys2Proof.Machine
end

