-- ==== Sys2Proof/Machine/Commits.lean ====
section
/-! DEFINITION. The meanings of the gather deadline's expiry (R28) and of the ends of write runs and fills
(R60, R61, R64, R65, R100, R101). -/

namespace Sys2Proof.Machine

/-- R28: the gather deadline of a buffer has been reached, on the time elapsed since its last write. -/
def State.gatherDue (s : State) (n : Index) : Bool :=
  (s.buffer n).hold.any fun h =>
    match h.phase with
    | .gather deadline => (deadline - h.lastWrite).toNat ≤ elapsedMs h.lastWrite s.uptime
    | _ => false

/-- GATHER_DEADLINE_EXPIRY (R28): the buffer is sealed. -/
def execGatherDeadlineExpiry (n : Index) (s : State) : Host.Outcome State Fault Refusal :=
  if s.gatherDue n then done (s.sealBuffer n) else nothing s

/-- R64: the first run of buffer `n` is done; `rest` are the runs left. -/
def State.runCompleted (s : State) (n : Index) (h : PageHold) (forced : Bool) (rest : List Run) : State :=
  let s := s.closeTransaction.ackDevice h.device
  let s := s.updateHold n fun h => { h with retries := 0 }
  if s.isImmediate h.device then
    (s.updateHold n fun h => { h with phase := .commit forced rest }).runsGoOn n forced rest
  else (s.updateHold n fun h => { h with phase := .cycle forced rest }).enterCycling h.device

/-- R65: a byte of a write run was refused: the buffer is HELD, and a CYCLED device that took data is CYCLING. -/
def State.runRefused (s : State) (n : Index) (h : PageHold) (index : Nat) : State :=
  let s := s.closeTransaction.ackDevice h.device
  let s :=
    if !s.isImmediate h.device && decide ((s.device h.device).addressBytes < index) then s.enterCycling h.device else s
  let s := s.logFault (s.bufferFault .dataRefused (BitVec.ofNat 8 index) h.device (some n))
  (s.holdBuffer .dataRefused n).select

/-- R64, R65: the outcome of the write run of buffer `n`, in COMMIT with `run` first in its list. -/
def State.runEnds (s : State) (n : Index) (h : PageHold) (forced : Bool) (run : Run) (rest : List Run) (o : RunOutcome) :
    Host.Outcome State Fault Refusal :=
  match o with
  | .completed => done (s.runCompleted n h forced rest)
  | .addressNack => if s.awaitsAddress false then done (s.closeTransaction.commitNacked n h.device false) else nothing s
  | .dataNack i =>
    if i < (s.device h.device).addressBytes + run.count && s.awaitsByte i then done (s.runRefused n h i) else nothing s

/-- WRITE_RUN_END (R64, R65). -/
def execWriteRunEnd (o : RunOutcome) (s : State) : Host.Outcome State Fault Refusal :=
  match s.job with
  | some (.run n) =>
    match (s.buffer n).hold with
    | some h =>
      match h.phase with
      | .commit forced (run :: rest) => if s.onBus (.run n) then s.runEnds n h forced run rest o else nothing s
      | _ => nothing s
    | none => nothing s
  | _ => nothing s

/-- R60, R100: the received bytes go to the unwritten positions of the span, below position `limit`. -/
def overlay (im : Image) (written : Mask) (span : Run) (limit : Nat) (bytes : List Byte) : Image :=
  Image.build fun p =>
    if span.first ≤ p && p < span.first + span.count && p < limit && !written.has p then bytes.getD (p - span.first) 0#8
    else im.byte p

/-- R60: a merge-fill has completed. -/
def State.fillMerged (s : State) (n : Index) (h : PageHold) (forced : Bool) (span : Run) (bytes : List Byte) : State :=
  let s := s.setImage n (overlay (s.buffer n).image h.written span 64 bytes)
  (s.updateHold n fun h =>
    { h with source := h.source ||| Mask.span span.first span.count, retries := 0, phase := .commit forced [span] }).joinRequest n

/-- R100: a checked fill has completed and matches, or the buffer is forced. -/
def State.fillChecked (s : State) (n : Index) (h : PageHold) (forced : Bool) (bytes : List Byte) : State :=
  let size := bytes.length
  let whole : Run := { first := 0, count := size }
  let s := s.setImage n ((overlay (s.buffer n).image h.written whole (size - 2) bytes).placeWord size)
  (s.updateHold n fun h =>
    { h with source := h.source ||| Mask.span 0 size, retries := 0, phase := .commit forced [whole] }).joinRequest n

/-- R57, R101: a checked fill has completed and does not match: the retry count becomes 0 and the buffer is HELD. -/
def State.fillMismatched (s : State) (n : Index) (h : PageHold) (bytes : List Byte) : State :=
  let s := s.updateHold n fun h => { h with retries := 0 }
  let s := s.countEvent .checkMismatch
  let s := s.logFault (s.bufferFault .checkMismatchFill (mismatchDetail bytes) h.device (some n))
  (s.holdBuffer .checkMismatch n).select

/-- R60, R100, R101: the fill of buffer `n` has received its bytes. -/
def State.fillCompleted (s : State) (n : Index) (h : PageHold) (forced : Bool) (bytes : List Byte) : State :=
  let s := s.closeTransaction.ackDevice h.device
  if s.isChecked h.device h.page then
    if !forced && !pageMatches bytes then s.fillMismatched n h bytes else s.fillChecked n h forced bytes
  else s.fillMerged n h forced (s.fillSpan h) bytes

/-- R60, R61: the outcome of the fill of buffer `n`, COMPLETED with the bytes handed over before and `bytes` (R111). -/
def State.fillEnds (s : State) (n : Index) (h : PageHold) (forced : Bool) (o : FillOutcome) :
    Host.Outcome State Fault Refusal :=
  match o with
  | .completed bytes =>
    let whole := s.handed ++ bytes
    if whole.length = (s.fillSpan h).count && s.fitsSampled bytes then done (s.fillCompleted n h forced whole) else nothing s
  | .addressNack reopened =>
    if s.awaitsAddress reopened then done (s.closeTransaction.commitNacked n h.device reopened) else nothing s
  | .dataNack i =>
    if i < (s.device h.device).addressBytes && s.awaitsByte i then
      done ((s.closeTransaction.ackDevice h.device).retryCommit n 0x03#8)
    else nothing s

/-- FILL_END (R60, R61, R100, R101). -/
def execFillEnd (o : FillOutcome) (s : State) : Host.Outcome State Fault Refusal :=
  match s.job with
  | some (.fill n) =>
    match (s.buffer n).hold with
    | some h =>
      match h.phase with
      | .fill forced => if s.onBus (.fill n) then s.fillEnds n h forced o else nothing s
      | _ => nothing s
    | none => nothing s
  | _ => nothing s

end Sys2Proof.Machine
end

