-- ==== Sys2Proof/Machine/Probes.lean ====
section
/-! DEFINITION. The meanings of the probes' commands (R51 to R54, R56). -/

namespace Sys2Proof.Machine

/-- PROBE_DUE (R51): the next-probe time of the device is reached, and its probe falls due. -/
def execProbeDue (d : Index) (s : State) : Host.Outcome State Fault Refusal :=
  match (s.record d).status.probe with
  | some p =>
    if p.next.reached s.now && !p.due && s.job != some (.probe d) then done (s.setDue d true) else nothing s
  | none => nothing s

/-- R94: the VERIFY reads of device `d` that wait for it are requested again, in ascending buffer number (DESIGN CHOICE, log
entry 35). -/
def State.requestVerifies (s : State) (d : Index) : State :=
  allIndices.foldl
    (fun s n =>
      if s.isOf d n && s.bufferState n == .verify && !s.bus.hostReads.contains (.verify n) && s.job != some (.verify n)
      then s.present (.verify n) else s) s

/-- R52: the buffer of device `d` in CYCLE goes on to its next run or ends its commit; a deferred one rejoins. -/
def State.resumeCommit (s : State) (d : Index) : State :=
  match s.committingOf d with
  | none => s
  | some n =>
    match (s.buffer n).hold.map PageHold.phase with
    | some (.cycle forced runs) => s.runsGoOn n forced runs
    | some _ | none => if s.engine.requests.contains n then s else s.joinRequest n

/-- R52, R56: the acknowledged probe returns device `d` to READY. -/
def State.probeAcknowledged (s : State) (d : Index) : State :=
  let s := if s.isSilent d then s.countEvent .deviceRevived else s
  let s := s.setRecord d .initial
  ((s.resumeCommit d).requestVerifies d).select

/-- The next probe of device `d` is `period` from now. -/
def State.nextProbe (s : State) (d : Index) (period : Nat) : State :=
  s.setStatus d ((s.record d).status.withProbe { next := s.deadline period, due := false })

/-- R53, R54, R56: the time to the next probe of a device: the poll interval, or 50 ms for a SILENT one. -/
def State.probePeriod (s : State) (d : Index) : Nat :=
  if s.isSilent d then Config.reviveInterval else s.layout.params.poll

/-- R53, R56: the NACKed probe of device `d`: the cycle limit is tested, or the next probe set. -/
def State.probeNacked (s : State) (d : Index) : State :=
  match (s.record d).status with
  | .cycling start _ =>
    let s := s.countNack d
    if (s.device d).cycleLimit * Config.stepsPerMs < start.elapsed s.now then
      s.enterSilent d (s.committingOf d) .cycleTimeout .cycleTimeout
    else s.nextProbe d (s.probePeriod d)
  | .silent _ => s.nextProbe d (s.probePeriod d)
  | .ready => s

/-- PROBE_END (R52, R53, R56, R113): the probe was acknowledged or NACKed; once its address has been acknowledged, it cannot
be NACKed. -/
def execProbeEnd (acknowledged : Bool) (s : State) : Host.Outcome State Fault Refusal :=
  match s.job with
  | some (.probe d) =>
    if s.onBus (.probe d) && (acknowledged || s.phase != some .close) then
      let s := s.closeTransaction
      done (if acknowledged then s.probeAcknowledged d else s.probeNacked d)
    else nothing s
  | _ => nothing s

end Sys2Proof.Machine
end

