-- ==== Sys2Proof/Machine/Streams.lean ====
section
/-! DEFINITION. The meanings of the stream's commands (R77 to R85). -/

namespace Sys2Proof.Machine

/-- STREAM_OPEN_ADDRESSED (R77): the stream is RUNNING; with no read to serve and a close wanted its first byte is its
closing byte (R81). -/
def execStreamOpenAddressed (s : State) : Host.Outcome State Fault Refusal :=
  match s.reads.stream with
  | .opening p =>
    if s.onBus .stream then
      let s := (s.ackDevice p.device).startReception
      done (s.setStream (if s.servedRead.isNone && s.closeWanted then .closing p else .running p))
    else nothing s
  | .closed | .running _ | .parked _ _ | .closing _ => nothing s

/-- R83: the read whose stream open met an address NACK. -/
def State.openNacked (s : State) (d : Index) (r : ReadRecord) : State :=
  if s.isImmediate d then s.refuseRead r .readNack (s.nackByte d) none else s.setRead { r with wait := .device }

/-- STREAM_OPEN_NACKED (R83): the device is busy, or its NACK is counted and the read refused. -/
def execStreamOpenNacked (reopened : Bool) (s : State) : Host.Outcome State Fault Refusal :=
  match s.reads.stream with
  | .opening p =>
    if s.onBus .stream && s.awaitsAddress reopened then
      let s := s.closeTransaction
      let s := if s.isImmediate p.device then s.nackImmediate p.device none reopened else s.busyNack p.device
      done (s.streamFails fun s r => s.openNacked p.device r)
    else nothing s
  | .closed | .running _ | .parked _ _ | .closing _ => nothing s

/-- STREAM_OPEN_DATA_NACK (R84): a memory address byte was refused. -/
def execStreamOpenDataNack (index : Nat) (s : State) : Host.Outcome State Fault Refusal :=
  match s.reads.stream with
  | .opening p =>
    if s.onBus .stream && decide (index < (s.device p.device).addressBytes) && s.awaitsByte index then
      let s := s.closeTransaction.ackDevice p.device
      done (s.streamFails fun s r => s.retryRead r 0x03#8)
    else nothing s
  | .closed | .running _ | .parked _ _ | .closing _ => nothing s

/-- R78, R82: after a byte at `p`, the stream stands at the next offset, or is closed after the block's last byte. -/
def State.streamPast (s : State) (p : StreamPos) : State :=
  if p.next = p.last then s.sendClose.streamCloses else s.setStream (.running { p with next := p.next + 1 })

/-- R79: a RUNNING stream that no read uses goes on. -/
def State.streamFree (s : State) : State := if s.servedRead.isSome then s else s.streamNext

/-- R78: the byte received is the current byte of the read `r`. The next byte is sought from forwarding on, with the device
tested again, so a device CYCLING or SILENT by then makes the read wait or refuses it (DESIGN CHOICE, log entry 33). -/
def State.byteForRead (s : State) (p : StreamPos) (r : ReadRecord) (v : Byte) : State :=
  let s := s.emptyAhead.streamPast p
  (s.resolve { r with values := r.values ++ [v], retries := 0 }).streamFree

/-- R79, R82, R87: the byte received is a read-ahead byte: it joins the queue, or with no room is discarded and the
queue emptied. -/
def State.byteAhead (s : State) (p : StreamPos) (v : Byte) : State :=
  let s := if s.aheadRoom then s.joinAhead p v else s.emptyAhead
  let s := s.streamPast p
  if p.next = p.last then s.afterClose else s.streamFree

/-- R81: the closing byte joins the queue when there is room; the stream is CLOSED. -/
def State.closingByte (s : State) (p : StreamPos) (v : Byte) : State :=
  (s.joinAhead p v).sendClose.streamCloses.afterClose

/-- STREAM_BYTE_RECEIVED (R78 to R82). -/
def execStreamByteReceived (v : Byte) (s : State) : Host.Outcome State Fault Refusal :=
  match s.reads.stream with
  | .running p =>
    if s.onBus .stream && s.fitsSampled [v] then
      let s := s.countBytes 1
      match s.servedRead with
      | some r => done (s.byteForRead p r v)
      | none => done (s.byteAhead p v)
    else nothing s
  | .closing p =>
    if s.onBus .stream && s.fitsSampled [v] then done ((s.countBytes 1).closingByte p v) else nothing s
  | .closed | .opening _ | .parked _ _ => nothing s

/-- PARK_DEADLINE_EXPIRY (R80, R81): the parked stream becomes CLOSING. -/
def execParkDeadlineExpiry (s : State) : Host.Outcome State Fault Refusal :=
  match s.reads.stream with
  | .parked p deadline =>
    if deadline.reached s.now then done (s.setStream (.closing p)).resume else nothing s
  | .closed | .opening _ | .running _ | .closing _ => nothing s

end Sys2Proof.Machine
end

