-- ==== Sys2Proof/Machine/Traffic.lean ====
section
/-! DEFINITION. The acknowledge that the engine gives (R111), the lines that it drives in each half bit (R104, R112, R121) and
the bits on which it tests for a loss (R119); the bytes of the transaction in progress that a tick brings whole (R109 to
R111). -/

namespace Sys2Proof.Machine

/-- R104: the byte that the transaction sends next; absent while it receives, re-opens or closes. -/
def Transaction.nextByte (t : Transaction) : Option Byte :=
  match t.phase with
  | .open | .address => some t.addressByte
  | .send => t.toSend.head?
  | .reopen | .receive | .park | .close => none

/-- R135: whether the last byte of a RECEIVE step is NACKed: its last-NACK flag is set, or an abort is pending. -/
def lastNacked (last abort : Bool) : Bool := last || abort

/-- R78, R111, R135: whether the bridge acknowledges the byte that it receives next: all but the last of a random read, all
but the closing byte and the block's last of a stream, all but the last of a RECEIVE step with last-NACK set or an abort
pending. -/
def State.acknowledges (s : State) : Bool :=
  match s.job with
  | some (.fill _) | some (.verify _) | some (.recordRead _) => s.bus.transaction.all fun t => t.remaining != some 1
  | some .stream =>
    match s.reads.stream with
    | .running p => p.next != p.last
    | .closing _ => false
    | .closed | .opening _ | .parked _ _ => true
  | some .sequence =>
    match s.slot.state with
    | .running steps _ _ _ current _ abort =>
      match stepAt steps current with
      | some (.receive n last) => !(lastNacked last abort && s.handed.length + 1 == n)
      | some (.open _ _) | some (.send _ _) | some .close | none => true
    | .empty | .waiting _ _ _ _ | .finished _ _ _ _ => true
  | some (.run _) | some (.probe _) | none => true

/-! ### The lines (R104) -/

/-- R104, R121: whether SCL is driven low in a half bit. -/
def HalfBit.drivesScl : HalfBit → Bool
  | .reopenLow | .closeLow _ | .clockLow _ | .pulseLow _ => true
  | .open | .reopenHigh | .reopenFall | .closeHigh _ | .clockHigh _ | .pulseHigh _ => false

/-- R104, R111: whether SDA is driven low in the clock of a byte that follows `k` others: for a bit 0 of a byte that the
bridge sends, most significant bit first, and in the ninth clock to acknowledge a byte that it receives. -/
def State.clockDrivesSda (s : State) (k : Nat) : Bool :=
  s.bus.transaction.any fun t =>
    if t.phase = .receive then k == 8 && s.acknowledges else k < 8 && t.nextByte.any fun v => !sentBit v k

/-- R104, R121: whether SDA is driven low in a half bit: after the fall of an open or a re-open, and for a close. -/
def State.halfDrivesSda (s : State) (h : HalfBit) : Bool :=
  match h with
  | .open | .reopenFall | .closeLow _ | .closeHigh _ => true
  | .reopenLow | .reopenHigh | .pulseLow _ | .pulseHigh _ => false
  | .clockLow bits | .clockHigh bits => s.clockDrivesSda bits.length

/-- R112: the stream is parked. -/
def State.parks (s : State) : Bool := s.bus.status == .owned && s.phase == some .park

/-- R104, R105, R112: whether the engine drives a line low: SDA, and SCL but where it has released it and another party
holds it; in a park SCL alone. -/
def State.drives (s : State) (line : Line) : Bool :=
  match s.bus.bit with
  | some w =>
    match line with
    | .scl => w.half.drivesScl && s.bus.lowStart.isNone
    | .sda => s.halfDrivesSda w.half
  | none => s.parks && line == .scl

/-- R104: a line is high unless the bridge or another party drives it low. -/
def State.level (s : State) (line : Line) : Bool :=
  !s.drives line && (match line with
    | .scl => s.bus.scl
    | .sda => s.bus.sda)

/-- R104, R111, R112: another party takes SDA to `level` while the bridge holds SCL low. -/
def State.targetSda (s : State) (level : Bool) : State :=
  if s.drives .scl then s.setBus fun b => { b with sda := level, idleHigh := if level then b.idleHigh else none } else s

/-- R119: the engine has yet to release SDA on a bit of `t` that it sends: in an address byte, in a byte of `rest` that is
not 00h, or before the re-open of a read. -/
def Transaction.releases (t : Transaction) (rest : List Byte) : Bool :=
  match t.phase with
  | .open | .address => true
  | .send => rest.any (· != 0#8)
  | .reopen => true
  | .receive | .park | .close => false

/-- R119: arbitration can be lost where the progress `p` stands: on a bit of 1 that the bridge sends, before a re-open, or
on the NACK of a byte it receives; bits that it drives low, and those it acknowledges, are not tested. -/
def State.lossTested (s : State) (p : Progress) : Bool :=
  match s.bus.transaction with
  | none => false
  | some t =>
    let got := t.received.length + p.received.length
    match t.job with
    | .run _ | .probe _ => t.releases t.toSend
    | .fill _ | .recordRead _ => t.phase != .close && t.phase != .park
    | .verify n => (s.buffer n).hold.any (fun h => got + 1 == s.pageSizeOf h) || (got == 0 && t.phase != .receive)
    | .stream =>
      match s.reads.stream with
      | .opening _ => true
      | .running _ | .closing _ => !s.acknowledges
      | .closed | .parked _ _ => false
    | .sequence =>
      match s.slot.state with
      | .running steps _ _ _ current outPos abort =>
        match stepAt steps current with
        | some (.open _ _) => true
        | some (.send _ _) => s.outBytes (outPos + p.sent) 1 != [0#8]
        | some (.receive n last) => lastNacked last abort && got + 1 == n
        | some .close | none => false
      | .empty | .waiting _ _ _ _ | .finished _ _ _ _ => false

/-! ### The bytes of a transaction (R109 to R111) -/

/-- R104, R109: the open or the re-open has been sent, and the address byte follows. -/
def Transaction.opened (t : Transaction) : Transaction :=
  match t.phase with
  | .open | .reopen => { t with phase := .address, byteIndex := 0 }
  | .address | .send | .receive | .park | .close => t

/-- R59, R63, R109: what follows when `rest` is left to send: more of it, the close of a run, or the re-open of a read. -/
def Transaction.sending (t : Transaction) (rest : List Byte) : Transaction :=
  if !rest.isEmpty then { t with phase := .send, toSend := rest }
  else
    match t.job with
    | .run _ => { t with phase := .close, toSend := [] }
    | .fill _ | .verify _ | .recordRead _ | .stream => { t with phase := .reopen, read := true, toSend := [] }
    | .probe _ | .sequence => t

/-- R109: an address byte has been acknowledged. The end of a probe, of an OPEN step and of a stream's open are rows of
their own. -/
def Transaction.addressed (t : Transaction) : Transaction :=
  match t.job with
  | .probe _ | .sequence => t
  | .stream => if t.read then t else t.sending t.toSend
  | .run _ | .fill _ | .verify _ | .recordRead _ =>
    if t.read then { t with phase := .receive } else t.sending t.toSend

/-- R109, R110: the byte first in `toSend` has been sent. The last byte of a SEND step ends with that step's own row. -/
def Transaction.byteSent (t : Transaction) : Transaction :=
  match t.toSend with
  | [] => t
  | _ :: rest =>
    if t.job == .sequence && rest.isEmpty then t
    else
      { t with byteIndex := t.byteIndex + 1
               remaining := match t.job with
                 | .run _ => t.remaining.map fun k => min k rest.length
                 | .fill _ | .verify _ | .recordRead _ | .stream | .probe _ | .sequence => t.remaining }.sending rest

/-- The device of the open stream. -/
def Stream.device : Stream → Option Index
  | .opening p | .running p | .parked p _ | .closing p => some p.device
  | .closed => none

/-- The device whose target the transaction of a job reaches, where its requester reports the acknowledge (R49). -/
def State.jobDevice (s : State) (j : Job) : Option Index :=
  match j with
  | .run n | .fill n | .verify n => s.deviceOf n
  | .stream => s.reads.stream.device
  | .recordRead _ | .probe _ | .sequence => none

/-- R49, R110: a byte that the bridge sent has ended its ninth clock, and the transaction goes on. -/
def State.byteSent (s : State) : State :=
  match s.bus.transaction with
  | none => s
  | some t =>
    match t.phase with
    | .address =>
      let s := match s.jobDevice t.job with
        | some d => s.ackDevice d
        | none => s
      s.setTransaction Transaction.addressed
    | .send => s.setTransaction Transaction.byteSent
    | .open | .reopen | .receive | .park | .close => s

/-- R109, R111: one more byte has been received in the transaction in progress; the close follows the last one of a random
read at once. -/
def Transaction.byteReceived (t : Transaction) (v : Byte) : Transaction :=
  { t with phase := if t.remaining = some 1 then .close else t.phase, byteIndex := t.byteIndex + 1
           received := t.received ++ [v], remaining := t.remaining.map (· - 1) }

/-- R94, R111, R131: a byte has been received and is handed to its requester: kept for a fill or a record read, placed in
the image of a VERIFY read, or in the in area. The last byte of a RECEIVE step, and every byte of a stream, has a row of
its own (DESIGN CHOICE, log entry 18). -/
def State.byteReceived (s : State) (v : Byte) : State :=
  match s.bus.transaction with
  | none => s
  | some t =>
    if t.phase != .receive || !s.fitsSampled [v] then s
    else
      let next := s.setTransaction fun t => t.byteReceived v
      match t.job with
      | .fill _ | .recordRead _ => if 0 < t.remaining.getD 0 then next else s
      | .verify n =>
        if 0 < t.remaining.getD 0 then next.setImage n ((s.buffer n).image.place t.received.length [v]) else s
      | .sequence =>
        match s.slot.state with
        | .running steps outLength received retries current outPos abort =>
          match stepAt steps current with
          | some (.receive n _) =>
            if t.received.length + 1 < n then
              (next.fillInArea received [v]).setSlot
                (.running steps outLength (received + 1) retries current outPos abort)
            else s
          | some (.open _ _) | some (.send _ _) | some .close | none => s
        | .empty | .waiting _ _ _ _ | .finished _ _ _ _ => s
      | .run _ | .stream | .probe _ => s

/-- R104 to R111: what the bus brings to the transaction in progress, while it is on the bus and no other party holds
SCL. -/
def State.busByte (s : State) (b : BusByte) : State :=
  if s.job.any s.onBus then
    match b with
    | .opened => s.setTransaction Transaction.opened
    | .sent => s.byteSent
    | .received v => s.byteReceived v
  else s

end Sys2Proof.Machine
end

