-- ==== Sys2Proof/Machine/Verify.lean ====
section
/-! DEFINITION. The meanings of the ends of a VERIFY read (R95 to R98). -/

namespace Sys2Proof.Machine

/-- R95: the page of verify buffer `n` matches: the buffer is CLEAN, and the read it was taken for starts its byte
again. -/
def State.verifyMatched (s : State) (n : Index) (h : PageHold) : State :=
  let reader := s.verifyReader n
  let s := s.updateHold n fun h =>
    { h with source := Mask.span 0 (s.pageSizeOf h), written := 0#64, retries := 0, phase := .clean s.uptime }
  let s := (s.freeOtherClean n h.device h.page).flushClean n
  match reader with
  | some r => s.resolve { r with verifyBuffer := none }
  | none => s

/-- R96: the page does not match: the buffer becomes FREE, the event is counted, and exactly one fault is logged. -/
def State.verifyMismatched (s : State) (n : Index) (h : PageHold) (start : Nat) (bytes : List Byte) : State :=
  let fault : FaultInfo :=
    { kind := .checkMismatchRead, detail := mismatchDetail bytes, device := some h.device
      window := s.windowOf h.device h.page, buffer := some n, place := some start }
  let reader := s.verifyReader n
  let s := (s.freeIf .verify n).countEvent .checkMismatch
  if reader.isSome then s.refuse (some fault) else s.logFault fault

/-- VERIFY_READ_END (R95, R96): the VERIFY read has received its page, the bytes handed over before and `bytes` (R111). -/
def execVerifyReadEnd (bytes : List Byte) (s : State) : Host.Outcome State Fault Refusal :=
  match s.job with
  | some (.verify n) =>
    match (s.buffer n).hold with
    | some h =>
      match h.phase with
      | .verify start =>
        let whole := s.handed ++ bytes
        if s.onBus (.verify n) && whole.length == s.pageSizeOf h && s.fitsSampled bytes then
          let s := (s.closeTransaction.ackDevice h.device).setImage n ((s.buffer n).image.place 0 whole)
          done (if pageMatches whole then s.verifyMatched n h else s.verifyMismatched n h start whole)
        else nothing s
      | _ => nothing s
    | none => nothing s
  | _ => nothing s

/-- R97: the VERIFY read of buffer `n` is requested again; while its device is not READY the request waits (R94). The read
that waits for it waits on, its byte not asked of forwarding anew (DESIGN CHOICE, log entry 45). -/
def State.requestVerify (s : State) (n : Index) : State :=
  let ready := (s.deviceOf n).any s.isReady
  let s := match s.verifyReader n with
    | some r => s.setRead { r with wait := if ready then .bus else .device }
    | none => s
  if ready then s.present (.verify n) else s

/-- R97: the VERIFY read of buffer `n` counts one retry, or at the limit ends. -/
def State.retryVerify (s : State) (n : Index) (outcome : Byte) : State :=
  match (s.buffer n).hold with
  | none => s
  | some h =>
    if h.retries < s.layout.params.retries then
      (s.updateHold n fun h => { h with retries := h.retries + 1 }).requestVerify n
    else s.endVerify n fun s r => s.refuseRead r .readRetries outcome (some n)

/-- R97: the VERIFY read of buffer `n` of the IMMEDIATE device `d` met an address NACK: its read is handed back with
READ_NACK, whatever the NACK makes of the device. -/
def State.verifyNackedImmediate (s : State) (n d : Index) (reopened : Bool) : State :=
  match s.verifyReader n with
  | some r =>
    let s := (s.freeIf .verify n).nackImmediate d none reopened
    s.refuseRead r .readNack (s.nackByte d) (some n)
  | none => (s.nackImmediate d none reopened).freeIf .verify n

/-- R97: the VERIFY read of buffer `n` of the CYCLED device `d` met an address NACK. -/
def State.verifyNackedCycled (s : State) (n d : Index) : State :=
  let s := s.busyNack d
  match s.verifyReader n with
  | some r => s.setRead { r with wait := .device }
  | none => s

/-- VERIFY_READ_FAILURE (R97). -/
def execVerifyReadFailure (o : VerifyFailure) (s : State) : Host.Outcome State Fault Refusal :=
  match s.job with
  | some (.verify n) =>
    match (s.buffer n).hold with
    | some h =>
      if s.onBus (.verify n) && s.bufferState n == .verify then
        match o with
        | .addressNack reopened =>
          if s.awaitsAddress reopened then
            let s := s.closeTransaction
            done (if s.isImmediate h.device then s.verifyNackedImmediate n h.device reopened
              else s.verifyNackedCycled n h.device)
          else nothing s
        | .dataNack i =>
          if i < (s.device h.device).addressBytes && s.awaitsByte i then
            done ((s.closeTransaction.ackDevice h.device).retryVerify n 0x03#8)
          else nothing s
      else nothing s
    | none => nothing s
  | _ => nothing s

end Sys2Proof.Machine
end

