-- ==== Sys2Proof/Machine/Lines.lean ====
section
/-! DEFINITION. The meanings of the Two-Wire Bus Engine's commands: grants (R116), what other parties do on the lines
(R105, R107), the free deadline (R108), arbitration loss (R119), stretching (R120), bus clear (R121) and STUCK (R122,
R123). -/

namespace Sys2Proof.Machine

/-! ### Grants -/

/-- BUS_GRANT (R116): a request waits and the bus is FREE. -/
def execBusGrant (s : State) : Host.Outcome State Fault Refusal :=
  if s.bus.status = .free then
    match s.choose with
    | some g => done (s.grant g .owned)
    | none => nothing s
  else nothing s

/-! ### The lines (R105, R106) -/

/-- Whether the bridge drives neither line for a transaction, a close or a bus clear: also after the close of the clear made for a
grant, whose transaction has not opened (R121). -/
def Bus.quiet (b : Bus) : Bool := b.clear.isNone && b.wire.isNone && (b.transaction.isNone || b.status == .clearing)

/-- R106, R158: whether the time `t` of the bus timer, set at most `span` steps ahead, has been reached or is reached
before the time base takes its next step (DESIGN CHOICE, log entry 4). -/
def State.comes (s : State) (t : Word) (span : Nat) : Bool :=
  let ahead := (t - s.bus.timer).toNat
  ahead == 0 || span < ahead || (t - s.tickStart).toNat < Config.busStepsPerTick

/-- The bus timer stands at `t`, up to `span` steps ahead, if it has not reached it (DESIGN CHOICE, log
entry 4). -/
def Bus.carryTo (b : Bus) (t : Word) (span : Nat) : Bus := if (t - b.timer).toNat ≤ span then { b with timer := t } else b

/-- R107, R123: what a fall of a line means in each bus state, the line levels apart. In FOREIGN the free deadline of a
foreign close ends with it, as the lines are no longer both high (DESIGN CHOICE, log entry 46). -/
def Bus.disturbed (b : Bus) : Bus :=
  match b.status with
  | .free => { b with status := .foreign, freeAt := none }
  | .foreign => { b with freeAt := none }
  | .stuck => { b with watch := none }
  | .owned | .clearing => b

/-- R105: SDA falls while SCL is high; in FOREIGN the held-data start is set (R106). -/
def Bus.fallSda (b : Bus) : Bus :=
  let b := { b with sda := false, idleHigh := none }.disturbed
  { b with heldData := if b.status = .foreign then some b.timer else none }

/-- R105: SCL falls, or is found low where the bridge releases it: a foreign low period begins at `now`. -/
def Bus.fallScl (b : Bus) (now : Stamp) : Bus :=
  let wire := b.bit.map fun w => { half := w.half.released, since := b.timer }
  { b with scl := false, idleHigh := none, heldData := none, lowStart := some now, wire := wire }.disturbed

/-- FOREIGN_OPEN (R105, R107): another party pulls a line low that the bridge does not drive low; SDA with SCL held low by the
bridge is no open. -/
def execForeignOpen (line : Line) (s : State) : Host.Outcome State Fault Refusal :=
  match line with
  | .sda =>
    if s.bus.scl && s.bus.sda && s.bus.quiet then done (s.setBus Bus.fallSda)
    else if s.drives .scl then done (s.targetSda false)
    else nothing s
  | .scl =>
    if s.bus.scl && s.phase != some .park then done (s.setBus fun b => b.fallScl s.now) else nothing s

/-- R107: SDA rises while SCL is high: in FOREIGN the bus-free time runs from here. -/
def Bus.riseSda (b : Bus) (rate : BusRate) (now : Stamp) : Bus :=
  { b with sda := true, idleHigh := some { timer := b.timer, stamp := now }, heldData := none
           freeAt := if b.status = .foreign then some (b.timer + BitVec.ofNat 32 rate.freeSteps) else b.freeAt }

/-- FOREIGN_CLOSE (R105, R107); SDA with SCL held low by the bridge is no close. -/
def execForeignClose (s : State) : Host.Outcome State Fault Refusal :=
  if s.bus.scl && !s.bus.sda && s.bus.quiet then done (s.setBus fun b => b.riseSda s.layout.params.rate s.now)
  else if s.drives .scl then done (s.targetSda true)
  else nothing s

/-- R106: SCL rises with SDA at `sda`, the bridge driving neither line. -/
def Bus.riseScl (b : Bus) (sda : Bool) (now : Stamp) : Bus :=
  { b with sda := sda, idleHigh := if sda then some { timer := b.timer, stamp := now } else none
           heldData := if !sda && b.status == .foreign then some b.timer else none }

/-- FOREIGN_LOW_PERIOD_END (R105): SCL is seen high, and a half bit that was stretched is timed from here (R120). A wait for
that after a stretch timeout goes on. -/
def execForeignLowPeriodEnd (sda : Bool) (s : State) : Host.Outcome State Fault Refusal :=
  if s.bus.lowStart.isSome then
    done (s.setBus fun b =>
      let wire := b.wire.map fun w => { w with since := b.timer }
      let b := { b with scl := true, lowStart := none, wire := wire }
      if b.quiet then b.riseScl sda s.now else b)
  else nothing s

/-- FOREIGN_BUS_FREE (R107): the bus-free time after a foreign close, or 100 µs with both lines high, has passed. -/
def execForeignBusFree (s : State) : Host.Outcome State Fault Refusal :=
  match s.bus.status, s.bus.idleHigh with
  | .foreign, some start =>
    let t := s.bus.freeAt.getD (start.timer + BitVec.ofNat 32 Config.idleHighTime)
    if s.comes t Config.idleHighTime then done (s.setBus fun b => (b.carryTo t Config.idleHighTime).becomeFree)
    else nothing s
  | _, _ => nothing s

/-- R78, R104: the close that the engine was sending has ended, the bus-free time before `t`. -/
def Bus.closeSent (b : Bus) (t : Word) (rate : BusRate) (now : Stamp) : Bus :=
  if b.wire.isSome then
    { b with wire := none, idleHigh := some { timer := t - BitVec.ofNat 32 rate.freeSteps, stamp := now } }
  else b

/-- FREE_DEADLINE (R108, R121): the bus-free time after a close has passed: the bus is FREE, or FOREIGN with a line
low, or after a bus clear for a grant OWNED with the granted transaction's open
(whatever the lines then carry: DEDUCED, log entry 19). -/
def execFreeDeadline (s : State) : Host.Outcome State Fault Refusal :=
  match s.bus.status, s.bus.freeAt, s.bus.transaction with
  | .owned, some t, none =>
    if s.comes t Config.idleHighTime && (s.bus.wire.isNone || s.bus.lowStart.isNone) then
      done (s.setBus fun b =>
        let b := (b.carryTo t Config.idleHighTime).closeSent t s.layout.params.rate s.now
        if b.scl && b.sda then b.becomeFree else b.becomeForeign)
    else nothing s
  | .clearing, some t, some _ =>
    if s.comes t Config.idleHighTime then
      done (s.setBus fun b =>
        { b.carryTo t Config.idleHighTime with status := .owned, freeAt := none, idleHigh := none, heldData := none })
    else nothing s
  | _, _, _ => nothing s

/-! ### Loss and timeout (R119, R120) -/

/-- R114: the two outcomes that cut a transaction off with no close. -/
inductive CutOff where
  | lost
  | timeout
  deriving DecidableEq, Repr

/-- R177: the outcome code of a detail byte. -/
def CutOff.code : CutOff → Byte
  | .lost => 0x01#8
  | .timeout => 0x02#8

/-- The event that counts the outcome. -/
def CutOff.event : CutOff → EventKind
  | .lost => .arbitrationLost
  | .timeout => .stretchTimeout

/-- R49: an address byte of the transaction had been acknowledged. -/
def State.ackIfAddressed (s : State) (d : Option Index) (p : Progress) : State :=
  match d with
  | some d => if p.addressed then s.ackDevice d else s
  | none => s

/-- R94: the bytes that a VERIFY read received whole since the last command went into its buffer's image. -/
def State.keepPartial (s : State) (n : Index) (bytes : List Byte) : State :=
  s.setImage n ((s.buffer n).image.place s.handed.length bytes)

/-- R54, R57, R84, R97, R133, R134, R167: the outcome LOST or STRETCH_TIMEOUT at the requester. -/
def State.cutOff (s : State) (j : Job) (c : CutOff) (p : Progress) : State :=
  match j with
  | .run n | .fill n => (s.ackIfAddressed (s.deviceOf n) p).retryCommit n c.code
  | .verify n => ((s.keepPartial n p.received).ackIfAddressed (s.deviceOf n) p).retryVerify n c.code
  | .stream => (s.ackIfAddressed s.reads.stream.device p).streamFails fun s r => s.retryRead r c.code
  | .recordRead discarded => if discarded then s else s.retryRecordRead
  | .probe d => s.nextProbe d (s.probePeriod d)
  | .sequence =>
    match c with
    | .lost => s.loseSequence p
    | .timeout => s.cutSequence .timeout p

/-- DESIGN CHOICE, log entry 20: whether the progress operand is that of a transaction of job `j` that has not ended; of a
VERIFY read, every byte of the page may have come, its close being stretched (R120). -/
def State.progressFits (s : State) (j : Job) (p : Progress) : Bool :=
  (match j with
  | .sequence => s.sequenceFits p
  | .verify n => (s.buffer n).hold.any fun h => s.handed.length + p.received.length ≤ s.pageSizeOf h
  | .run _ | .fill _ | .recordRead _ | .stream | .probe _ => true) && s.fitsSampled p.received

/-- R119: both lines are released at once, and SDA is low in the high phase of SCL: the bus is FOREIGN. -/
def Bus.lose (b : Bus) : Bus := { b with transaction := none, scl := true, sda := false }.becomeForeign

/-- R119: the transaction of `j` has lost the bus. -/
def State.losesBus (s : State) (j : Job) (p : Progress) : State :=
  ((s.countEvent .arbitrationLost).cutOff j .lost p).setBus Bus.lose

/-- ARBITRATION_LOSS (R119): SDA is low on a bit that the bridge released. A park and a close send no bit that is tested
(DEDUCED, log entry 25). -/
def execArbitrationLoss (p : Progress) (s : State) : Host.Outcome State Fault Refusal :=
  match s.bus.status, s.job with
  | .owned, some j =>
    if s.bus.lowStart.isNone && s.phase != some .park && s.phase != some .close && s.progressFits j p && s.lossTested p then
      done (s.losesBus j p)
    else nothing s
  | _, _ => nothing s

/-- R120: the foreign low period has reached the stretch limit. -/
def State.stretchReached (s : State) : Bool :=
  s.bus.lowStart.any fun t => s.layout.params.stretch ≤ t.elapsed s.now

/-- STRETCH_TIMEOUT (R120): the transaction ends, and the engine waits, still OWNED, for SCL to rise. -/
def execStretchTimeout (p : Progress) (s : State) : Host.Outcome State Fault Refusal :=
  match s.bus.status, s.job with
  | .owned, some j =>
    if s.stretchReached && s.phase != some .park && s.progressFits j p then
      done (((s.countEvent .stretchTimeout).cutOff j .timeout p).setBus fun b =>
        { b with transaction := none, wire := none, awaitRise := true })
    else nothing s
  | _, _ => nothing s

/-- SCL_RISE_AFTER_TIMEOUT (R120): the close is sent, with SDA low after a bus clear. -/
def execSclRiseAfterTimeout (sda : Bool) (s : State) : Host.Outcome State Fault Refusal :=
  if s.bus.status = .owned ∧ s.bus.awaitRise then
    done (s.setBus fun b =>
      let b := { b with scl := true, sda := sda, lowStart := none, awaitRise := false }
      if sda then b.sendsClose s.layout.params.rate else { b with idleHigh := none, clear := some .afterTimeout })
  else nothing s

/-! ### Bus clear (R121) -/

/-- BUS_CLEAR_GRANT (R121): in FOREIGN, with SCL high and SDA low for 1 ms, the chosen request is granted a clear (DEDUCED,
log entry 29: its grant takes effect here). -/
def execBusClearGrant (s : State) : Host.Outcome State Fault Refusal :=
  match s.bus.status, s.bus.heldData, s.choose with
  | .foreign, some start, some g =>
    let t := start + BitVec.ofNat 32 Config.heldDataTime
    if s.comes t Config.heldDataTime then
      let s := s.setBus fun b => b.carryTo t Config.heldDataTime
      done ((s.grant g .clearing).setBus fun b => { b with clear := some .grant })
    else nothing s
  | _, _, _ => nothing s

/-- R121: the bus clear made for `c` has succeeded and its close is sent, with the free deadline of R106. -/
def Bus.cleared (b : Bus) (c : ClearCause) (rate : BusRate) (now : Stamp) : Bus :=
  let held := b.transaction
  let b := { b.closed rate now with clear := none }
  match c with
  | .grant => { b with transaction := held }
  | .afterTimeout => b
  | .stuckCheck => { b with watch := some b.timer }

/-- R121: the bus clear made for `c` has failed. -/
def State.clearFails (s : State) (c : ClearCause) : State :=
  match c with
  | .grant | .afterTimeout => (s.setBus fun b => { b with clear := none }).enterStuck .sda
  | .stuckCheck => s.setBus fun b => { b with clear := none, wire := none }

/-- R121: a clear fails with SDA still low after its nine pulses, and not once SDA has been sampled high. -/
def State.mayFail (s : State) : Bool :=
  !s.bus.sda && s.bus.wire.all fun w => match w.half with
    | .pulseLow _ | .pulseHigh _ => true
    | .open | .reopenLow | .reopenHigh | .reopenFall | .closeLow _ | .closeHigh _ | .clockLow _ | .clockHigh _ => false

/-- BUS_CLEAR_END (R121, R123). A clear in which another party holds SCL low goes on when SCL rises; at a stuck check, which
R122 does not end, it waits for that and no further check is made meanwhile (DESIGN CHOICE, log entry 39). -/
def execBusClearEnd (freed : Bool) (s : State) : Host.Outcome State Fault Refusal :=
  match s.bus.clear with
  | some c =>
    if s.bus.lowStart.isSome then nothing s
    else if freed then done (s.setBus fun b => b.cleared c s.layout.params.rate s.now)
    else if s.mayFail then done (s.clearFails c)
    else nothing s
  | none => nothing s

/-! ### STUCK (R122, R123) -/

/-- R122: a foreign low period has lasted 35 ms. -/
def State.sclHeld (s : State) : Bool := s.bus.lowStart.any fun t => Config.stuckLimit ≤ t.elapsed s.now

/-- R120: while a transaction is in progress in OWNED, its STRETCH_TIMEOUT is reported before the bus is STUCK
(DEDUCED, log entry 11). -/
def State.timeoutComesFirst (s : State) : Bool := s.bus.status == .owned && s.bus.transaction.isSome

/-- SCL_HELD_TIMEOUT (R122). -/
def execSclHeldTimeout (s : State) : Host.Outcome State Fault Refusal :=
  if s.sclHeld && !s.isStuck && !s.timeoutComesFirst then done (s.enterStuck .scl) else nothing s

/-- R123: what a check finds: SCL low, SDA low alone, or both lines high. -/
def Bus.checked (b : Bus) : Bus :=
  if !b.scl then b else if !b.sda then { b with clear := some .stuckCheck } else { b with watch := some b.timer }

/-- STUCK_CHECK (R123): at the next check time the lines are sampled, and the next check follows in 50 ms. That time is set
at the check also where a clear or a watch begins, which R123 sets at its failure or its end; no check is made before
(DESIGN CHOICE, log entry 43). -/
def execStuckCheck (s : State) : Host.Outcome State Fault Refusal :=
  if s.isStuck && s.bus.nextCheck.any (fun d => d.reached s.now) && s.bus.clear.isNone && s.bus.watch.isNone then
    done (s.setBus fun b => { b with nextCheck := some (s.deadline Config.stuckRecheck) }.checked)
  else nothing s

/-- RECOVERY_WATCH_END (R123): both lines have stayed high for 100 µs, and the bus is FREE. -/
def execRecoveryWatchEnd (s : State) : Host.Outcome State Fault Refusal :=
  match s.bus.status, s.bus.watch with
  | .stuck, some start =>
    let t := start + BitVec.ofNat 32 Config.watchTime
    if s.comes t Config.watchTime then
      done ((s.setBus fun b => (b.carryTo t Config.watchTime).becomeFree).countEvent .busRecovered)
    else nothing s
  | _, _ => nothing s

end Sys2Proof.Machine
end

