-- ==== Sys2Proof/Machine/Modes.lean ====
section
/-! DEFINITION. The meanings of the Mode Controller's own commands: the end of a flush watch (R38), the stages and
ends of a reload (R170), the record read's attempts and ends (R167, R168), the power-fail flush and its end (R172 to
R174). -/

namespace Sys2Proof.Machine

/-- R38: whether the flush watch is done. -/
def State.flushWatchDone (s : State) : Bool :=
  s.table.flushWatch && s.table.queue.isEmpty && allIndices.all fun n => !(s.bufferState n).committing

/-- FLUSH_DONE (R38). -/
def execFlushDone (s : State) : Host.Outcome State Fault Refusal :=
  if s.flushWatchDone then done s.endFlushWatch else nothing s

/-- R170: whether the reload leaves its current stage. -/
def State.stageDone (s : State) : Bool :=
  match s.control.mode with
  | .reloading .draining => s.drained
  | .reloading .sequence => !s.slot.state.abortable
  | .reloading .reading | .starting | .running | .flushing | .safe => false

/-- RELOAD_STAGE_ADVANCE (R170). -/
def execReloadStageAdvance (s : State) : Host.Outcome State Fault Refusal :=
  if s.stageDone then done s.advanceReload else nothing s

/-! ### The record read (R167) -/

/-- R167: whether an attempt at the time `next` falls more than 64 ms after the first address NACK. -/
def RecordRead.tooLate (r : RecordRead) (next : Deadline) : Bool :=
  r.firstNack.any fun t => Config.attemptSpan < t.elapsed next.time

/-- RECORD_READ_NEXT_ATTEMPT (R167): the read is presented again, or fails past 64 ms (DEDUCED, log entry 26). -/
def execRecordReadNextAttempt (s : State) : Host.Outcome State Fault Refusal :=
  match s.control.recordRead with
  | none => nothing s
  | some r =>
    match r.nextAttempt with
    | none => nothing s
    | some next =>
      if next.reached s.now then
        done (if r.tooLate next then s.failRecordRead
          else (s.setRecordRead (some { r with nextAttempt := none })).presentRecordRead)
      else nothing s

/-- R167: what an attempt's NACK makes of the read. -/
def State.attemptNacked (s : State) (o : AttemptNack) : State :=
  match o with
  | .address => s.nackRecordRead
  | .data _ => s.retryRecordRead

/-- R110, R167: whether a NACK of this form can fall in the record read. -/
def State.attemptFits (s : State) (o : AttemptNack) : Bool :=
  match o with
  | .address => s.awaitsAddress true
  | .data i => decide (i < s.control.bootBytes) && s.awaitsByte i

/-- RECORD_READ_ATTEMPT_NACKED (R167); the outcome of an abandoned read is discarded (R171). -/
def execRecordReadAttemptNacked (o : AttemptNack) (s : State) : Host.Outcome State Fault Refusal :=
  if s.attemptFits o then
    if s.onBus (.recordRead false) then done (s.closeTransaction.attemptNacked o)
    else if s.onBus (.recordRead true) then done s.closeTransaction
    else nothing s
  else nothing s

/-! ### The ends of the record read (R168, R170) -/

/-- R168: the start-up installs the record, or the fallback layout with a rejection. -/
def State.installAtStartup (s : State) (outcome : Option Rejection) (bytes : List Byte) : State :=
  match outcome with
  | none => (s.install (readLayout bytes) .record).countEvent .layoutLoaded
  | some x => (s.install (fallbackLayout s.control.bootTarget s.control.bootBytes) .fallback).rejectLayout x

/-- STARTUP_RECORD_READ_END (R168): a layout is installed, and the mode leaves STARTING. -/
def execStartupRecordReadEnd (bytes : List Byte) (s : State) : Host.Outcome State Fault Refusal :=
  if s.control.mode = .starting ∧ s.recordReadEnds bytes then
    let whole := s.handed ++ bytes
    let s := s.closeRecordRead.installAtStartup (recordOutcome s.recordFailed whole) whole
    done (if s.control.pfw then s.setMode .running else s.enterSafe)
  else nothing s

/-- R170: the reload installs the record, or keeps the layout with a rejection. -/
def State.installAtReload (s : State) (outcome : Option Rejection) (bytes : List Byte) : State :=
  match outcome with
  | none => (s.install (readLayout bytes) .record).countEvent .layoutLoaded
  | some x => (s.setRecordRead none).rejectLayout x

/-- RELOAD_RECORD_READ_END (R170); the outcome of an abandoned read is discarded (R171). -/
def execReloadRecordReadEnd (bytes : List Byte) (s : State) : Host.Outcome State Fault Refusal :=
  if s.control.mode = .reloading .reading ∧ s.recordReadEnds bytes then
    let whole := s.handed ++ bytes
    let s := s.closeRecordRead.installAtReload (recordOutcome s.recordFailed whole) whole
    done (s.setMode .running)
  else if s.onBus (.recordRead true) ∧ (s.handed ++ bytes).length = Config.recordLength ∧ s.fitsSampled bytes then done s.closeTransaction
  else nothing s

/-! ### The power-fail flush (R172 to R174) -/

/-- The state with the level of PFW# replaced. -/
def State.setPfw (s : State) (level : Bool) : State := { s with control := { s.control with pfw := level } }

/-- R171: a reload is abandoned by PFW#: its record read is dropped. -/
def State.abandonReload (s : State) : State := if s.control.mode.isReloading then s.dropRecordRead else s

/-- R171, R172: the flush begins. -/
def State.beginFlush (s : State) : State :=
  let reloading := s.control.mode.isReloading
  let s := (s.abandonReload.setMode .flushing).sealAll.cleanRelease.abortSlot.handBack
  let s := if s.heldByMode then s.refuse none else s
  let s := if reloading then s.logFault (abandonFault 0x01#8 none none) else s
  s.endFlush

/-- POWER_FAIL_FLUSH (R172): PFW# falls; in RUNNING and RELOADING the power-fail flush begins
(DEDUCED, log entry 22). -/
def execPowerFailFlush (s : State) : Host.Outcome State Fault Refusal :=
  if s.control.pfw then
    let s := s.setPfw false
    match s.control.mode with
    | .running | .reloading _ => done s.beginFlush
    | .starting | .flushing | .safe => done s
  else nothing s

/-- FLUSH_END (R173). -/
def execFlushEnd (s : State) : Host.Outcome State Fault Refusal :=
  if s.control.mode = .flushing ∧ s.flushDrained then done s.endFlush else nothing s

/-- SAFE_EXIT (R174): PFW# rises; in SAFE the mode becomes RUNNING. -/
def execSafeExit (s : State) : Host.Outcome State Fault Refusal :=
  if s.control.pfw then nothing s
  else
    let s := s.setPfw true
    match s.control.mode with
    | .safe => done (s.setMode .running)
    | .starting | .running | .reloading _ | .flushing => done s

end Sys2Proof.Machine
end

