-- ==== Sys2Proof/Machine/Sequences.lean ====
section
/-! DEFINITION. The meanings of the Direct Sequencer's commands on the bus: a step ends (R131) and the sequence's
transaction closes (R132, R135). -/

namespace Sys2Proof.Machine

/-- R131: the current step `st` is done, with the bytes that a RECEIVE step received since the last command. -/
def State.stepEnds (s : State) (st : SeqStep) (steps : List SeqStep) (outLength received retries current outPos : Nat)
    (abort : Bool) (bytes : List Byte) : Host.Outcome State Fault Refusal :=
  match st with
  | .open _ _ => done (s.nextStep steps outLength received retries current outPos abort)
  | .send n _ => done ((s.countBytes s.unsent).nextStep steps outLength received retries current (outPos + n) abort)
  | .receive n _ =>
    if s.handed.length + bytes.length = n ∧ s.fitsSampled bytes then
      done (((s.countBytes bytes.length).fillInArea received bytes).nextStep steps outLength (received + bytes.length) retries
        current outPos abort)
    else nothing s
  | .close => nothing s

/-- SEQUENCE_STEP_END (R131, R135): an OPEN, SEND or RECEIVE step is done, and the next step runs, or with an abort
pending the close is sent in its place. A CLOSE step ends with SEQUENCE_END. -/
def execSequenceStepEnd (bytes : List Byte) (s : State) : Host.Outcome State Fault Refusal :=
  match s.slot.state with
  | .running steps outLength received retries current outPos abort =>
    if s.onBus .sequence && s.phase != some .close then
      match stepAt steps current with
      | some st => s.stepEnds st steps outLength received retries current outPos abort bytes
      | none => nothing s
    else nothing s
  | .empty | .waiting _ _ _ _ | .finished _ _ _ _ => nothing s

/-- R132: whether byte `i` of the step `st` is a byte that a NACK refuses: one of a checked SEND, of whose bytes `unsent`
have not been sent whole. -/
def SeqStep.refuses (i unsent : Nat) : SeqStep → Bool
  | .send n check => check && decide (n - unsent ≤ i) && decide (i < n)
  | .open _ _ | .receive _ _ | .close => false

/-- R132, R135: the outcome and the byte index of the close `o` in the phase `ph` of step `st`; `none` when that close
cannot come there. -/
def closeOutcome (ph : Option BusPhase) (st : Option SeqStep) (unsent : Nat) (o : SequenceClose) : Option (SeqOutcome × Option Nat) :=
  match o with
  | .closed =>
    if ph = some .close then some (if st = some .close then .done else .aborted, none) else none
  | .addressNack => if ph ≠ some .close ∧ st.any SeqStep.isOpen then some (.nacked, none) else none
  | .dataNack i => if ph ≠ some .close ∧ st.any (SeqStep.refuses i unsent) then some (.nacked, some i) else none

/-- SEQUENCE_END (R132, R135, R136): the transaction closes and the slot is FINISHED. -/
def execSequenceEnd (o : SequenceClose) (s : State) : Host.Outcome State Fault Refusal :=
  match s.slot.state with
  | .running steps outLength received _ current _ _ =>
    if s.onBus .sequence then
      match closeOutcome s.phase (stepAt steps current) s.unsent o with
      | some (outcome, index) => done (s.closeTransaction.finishWith steps outLength received outcome current index)
      | none => nothing s
    else nothing s
  | .empty | .waiting _ _ _ _ | .finished _ _ _ _ => nothing s

end Sys2Proof.Machine
end

