-- ==== Sys2Proof/Machine/Wire.lean ====
section
/-! DEFINITION. The engine bit by bit (R104, R106): the half bits of a transaction and of a bus clear, timed on the 50 ns bus
timer, with the rows of the table that their ends bring about (R109 to R111, R113, R119, R121). -/

namespace Sys2Proof.Machine

/-- The state that a command leaves; every command leaves one. -/
def stateAfter (o : Host.Outcome State Fault Refusal) (s : State) : State :=
  match o with
  | .next t => t
  | .fault _ | .refused _ => s

/-- The half bit `h` begins now. -/
def State.beginHalf (s : State) (h : HalfBit) : State :=
  s.setBus fun b => { b with wire := some { half := h, since := b.timer } }

/-! ### The ends of a transaction -/

/-- R114: the transaction of `j` ends COMPLETED with its close; of a sequence the close of its CLOSE step or of an abort. -/
def State.closeReported (s : State) (j : Job) : State :=
  match j with
  | .run _ => stateAfter (execWriteRunEnd .completed s) s
  | .fill _ => stateAfter (execFillEnd (.completed []) s) s
  | .verify _ => stateAfter (execVerifyReadEnd [] s) s
  | .recordRead _ =>
    stateAfter (if s.control.mode = .starting then execStartupRecordReadEnd [] s else execReloadRecordReadEnd [] s) s
  | .probe _ => stateAfter (execProbeEnd true s) s
  | .sequence => stateAfter (execSequenceEnd .closed s) s
  | .stream => s

/-- R110: the transaction of `j` ends with the close that follows a refused byte. -/
def State.refusalReported (s : State) (j : Job) (r : Refused) : State :=
  match j, r with
  | .run _, .address _ => stateAfter (execWriteRunEnd .addressNack s) s
  | .run _, .byte i => stateAfter (execWriteRunEnd (.dataNack i) s) s
  | .fill _, .address reopened => stateAfter (execFillEnd (.addressNack reopened) s) s
  | .fill _, .byte i => stateAfter (execFillEnd (.dataNack i) s) s
  | .verify _, .address reopened => stateAfter (execVerifyReadFailure (.addressNack reopened) s) s
  | .verify _, .byte i => stateAfter (execVerifyReadFailure (.dataNack i) s) s
  | .stream, .address reopened => stateAfter (execStreamOpenNacked reopened s) s
  | .stream, .byte i => stateAfter (execStreamOpenDataNack i s) s
  | .recordRead _, .address _ => stateAfter (execRecordReadAttemptNacked .address s) s
  | .recordRead _, .byte i => stateAfter (execRecordReadAttemptNacked (.data i) s) s
  | .probe _, .address _ | .probe _, .byte _ => stateAfter (execProbeEnd false s) s
  | .sequence, .address _ => stateAfter (execSequenceEnd .addressNack s) s
  | .sequence, .byte i => stateAfter (execSequenceEnd (.dataNack i) s) s

/-- R104, R114, R121: SDA is released with SCL high: the close has been sent, of a bus clear, of the transaction on the bus, or
of one already reported. -/
def State.closeSent (s : State) (refused : Option Refused) : State :=
  if s.bus.clear.isSome then stateAfter (execBusClearEnd true s) s
  else
    match s.bus.transaction, refused with
    | none, _ => s.closeTransaction
    | some t, none => s.closeReported t.job
    | some t, some r => s.refusalReported t.job r

/-! ### The ninth clock of a byte (R110, R111) -/

/-- R131: the SEND step in progress; what its check flag makes of a NACK, and how many of its bytes have been sent. -/
def State.sendStep (s : State) : Option (Bool × Nat) :=
  match s.slot.state with
  | .running steps _ _ _ current _ _ =>
    match stepAt steps current with
    | some (.send n check) => some (check, n - s.unsent)
    | some (.open _ _) | some (.receive _ _) | some .close | none => none
  | .empty | .waiting _ _ _ _ | .finished _ _ _ _ => none

/-- R110, R113, R132: a byte that the bridge sent has been acknowledged, or the NACK of an unchecked SEND step ignored. -/
def State.byteAccepted (s : State) (t : Transaction) : State :=
  match t.job with
  | .probe _ => s.setPhase .close
  | .stream => if t.phase = .address ∧ t.read then stateAfter (execStreamOpenAddressed s) s else s.byteSent
  | .sequence =>
    if t.phase = .address ∨ t.toSend.length ≤ 1 then stateAfter (execSequenceStepEnd [] s) s else s.byteSent
  | .run _ | .fill _ | .verify _ | .recordRead _ => s.byteSent

/-- R110, R132: what a NACK of the byte that the bridge sent refuses; a byte of an unchecked SEND step is not refused. -/
def State.refusedBy (s : State) (t : Transaction) : Option Refused :=
  if t.phase = .address then some (.address t.read)
  else
    match t.job with
    | .sequence => s.sendStep.bind fun (check, k) => if check then some (.byte k) else none
    | .run _ | .fill _ | .verify _ | .recordRead _ | .stream | .probe _ => some (.byte t.byteIndex)

/-- R111: the byte `v` has been received and is handed to its requester; the last one of a RECEIVE step ends it (R131), and a
stream's is its own row (R78). -/
def State.byteArrived (s : State) (t : Transaction) (v : Byte) : State :=
  match t.job with
  | .stream => stateAfter (execStreamByteReceived v s) s
  | .sequence =>
    let ended := stateAfter (execSequenceStepEnd [v] s) s
    if ended.slot.state = s.slot.state then s.byteReceived v else ended
  | .run _ | .fill _ | .verify _ | .recordRead _ | .probe _ => s.byteReceived v

/-- R110, R111: the end of the ninth clock of a byte, whose eight bits were sampled as `bits`, with SDA at `nack`. -/
def State.byteEnds (s : State) (t : Transaction) (bits : List Bool) (nack : Bool) : State :=
  if t.phase = .receive then s.byteArrived t (arrivedByte bits)
  else if nack then
    match s.refusedBy t with
    | some r => s.beginHalf (.closeLow (some r))
    | none => s.byteAccepted t
  else s.byteAccepted t

/-! ### Half bits -/

/-- R119: arbitration is lost on the present bit, of a SEND step in the byte that comes next. -/
def State.bitLost (s : State) : State :=
  let sent := (s.sendStep.map (·.2)).getD 0
  stateAfter (execArbitrationLoss { addressed := false, sent := sent, received := [] } s) s

/-- R119: the clock that follows `k` others is tested for a loss: a bit of a byte sent, or the NACK of a byte received. -/
def Transaction.testsClock (t : Transaction) (k : Nat) : Bool := if t.phase = .receive then k == 8 else k < 8

/-- R104, R110, R111, R119: the high phase of the clock that follows `bits` ends; SDA is sampled. -/
def State.clockEnds (s : State) (bits : List Bool) (released level : Bool) : State :=
  match s.bus.transaction with
  | none => s
  | some t =>
    if t.testsClock bits.length && released && !level then s.bitLost
    else if 8 ≤ bits.length then s.byteEnds t bits level
    else s.beginHalf (.clockLow (bits ++ [level]))

/-- R121: the pulse number `n` of a bus clear ends with SDA at `level`. -/
def State.pulseEnds (s : State) (n : Nat) (level : Bool) : State :=
  if level then s.beginHalf (.closeLow none)
  else if Config.clearPulses ≤ n then stateAfter (execBusClearEnd false s) s
  else s.beginHalf (.pulseLow (n + 1))

/-- R104: the half bit `h` ends, SDA being released by the bridge or not, and at `level`. -/
def State.halfEnds (s : State) (h : HalfBit) (released level : Bool) : State :=
  match h with
  | .open | .reopenFall => s.setTransaction Transaction.opened
  | .reopenLow => s.beginHalf .reopenHigh
  | .reopenHigh => if level then s.beginHalf .reopenFall else s.bitLost
  | .clockLow bits => s.beginHalf (.clockHigh bits)
  | .clockHigh bits => s.clockEnds bits released level
  | .closeLow refused => s.beginHalf (.closeHigh refused)
  | .closeHigh refused => if s.bus.sda then s.closeSent refused else (s.closeSent refused).setBus Bus.fallSda
  | .pulseLow n => s.beginHalf (.pulseHigh n)
  | .pulseHigh n => s.pulseEnds n level

/-- R106: the bus timer `n` steps on, and the half bit in progress `w`. -/
def State.runTimer (s : State) (n : Nat) (w : Option Wire) : State :=
  s.setBus fun b => { b with timer := b.timer + BitVec.ofNat 32 n, wire := w }

/-- R104, R106, R120: `n` steps of 50 ns pass, as far as the present step of 100 µs goes (DESIGN CHOICE, log entries 4 and 47).
They end with the half bit in progress if that ends within them; it waits while another party holds SCL low. -/
def State.pass (s : State) (n : Nat) : State :=
  let room := min n (Config.busStepsPerTick - 1 - (s.bus.timer - s.tickStart).toNat)
  match s.bus.bit with
  | none => s.runTimer room none
  | some w =>
    let left := s.layout.params.rate.halfSteps - (s.bus.timer - w.since).toNat
    if s.bus.lowStart.isSome || room < left then s.runTimer room (some w)
    else (s.runTimer left none).halfEnds w.half (!s.drives .sda) (s.level .sda)

/-- R104 to R111: what passes on the two-wire bus within a tick. -/
def State.busEvent (s : State) (e : BusEvent) : State :=
  match e with
  | .byte b => s.busByte b
  | .pass n => s.pass n
  | .sda level => s.targetSda level

end Sys2Proof.Machine
end

