-- ==== Sys2Proof/Machine/Clock.lean ====
section
/-! DEFINITION. The meanings of RESET and TIME_BASE_TICK. -/

namespace Sys2Proof.Machine

/-- RESET (R166): every block returns to its reset values, the straps are sampled, STARTING begins and the record read
is presented. The input pins SCS#, SCK and PFW# keep their levels. -/
def execReset (bootA : BitVec 3) (bootW scl sda : Bool) (s : State) : Host.Outcome State Fault Refusal :=
  .next (State.afterReset bootA bootW scl sda s.pending s.service.scs s.service.sck s.control.pfw)

/-- TIME_BASE_TICK (R157): the time base advances; what passed on the two-wire bus before it in its 100 µs, and
then the edges of SCK, have had their effect, that of a command taken included (R104 to R111, R146, R150; DESIGN CHOICE, log
entries 15, 16 and 47). -/
def execTimeBaseTick (s : State) (traffic : List BusEvent := []) (edges : List SckEdge := []) :
    Host.Outcome State Fault Refusal :=
  done (edges.foldl State.sckEdge (traffic.foldl State.busEvent s)).tick

end Sys2Proof.Machine
end

