-- ==== Sys2Proof/Machine/HostPort.lean ====
section
/-! DEFINITION. The meanings of the Host Memory Port's commands: taking, ending and withdrawing an access, and the ends
of its waits (R25, R37, R71, R138 to R145). -/

namespace Sys2Proof.Machine

/-- HOST_ACCESS_TAKEN (R138 to R141): in IDLE the access is latched and acted on by the mode. -/
def execHostAccessTaken (write : Bool) (half : BitVec 19) (laneL laneU : Bool) (hd : BitVec 16) (s : State) :
    Host.Outcome State Fault Refusal :=
  match s.port with
  | .idle =>
    let req : HostRequest :=
      { write := write, half := half, laneL := laneL, laneU := laneU, data := if write then latched laneL laneU hd else [] }
    done { s with port := .waiting req .mode }.dispatchByMode
  | .waiting _ _ | .answered _ _ => nothing s

/-- ACCESS_END (R143): in ANSWERED, HSEL# high returns the port to IDLE. -/
def execAccessEnd (s : State) : Host.Outcome State Fault Refusal :=
  match s.port with
  | .answered _ _ => done { s with port := .idle }
  | .idle | .waiting _ _ => nothing s

/-- WITHDRAWAL (R145, R87): in WAITING, HSEL# high withdraws the access. -/
def execWithdrawal (s : State) : Host.Outcome State Fault Refusal :=
  match s.port with
  | .waiting _ _ => done s.withdrawAccess
  | .idle | .answered _ _ => nothing s

/-- WAITING_WRITE_RETRY (R25): with a buffer FREE or CLEAN, the waiting write runs R21 again from step 1. -/
def execWaitingWriteRetry (s : State) : Host.Outcome State Fault Refusal :=
  match s.port with
  | .waiting _ (.buffers t) => if s.noneSpare then nothing s else done (s.writeAccess t)
  | .idle | .waiting _ .mode | .waiting _ (.readPath _) | .answered _ _ => nothing s

/-- VERIFY_ALLOCATION_RETRY (R37, R93): with a buffer FREE or CLEAN, the waiting read runs the lookup anew and asks
again. -/
def execVerifyAllocationRetry (s : State) : Host.Outcome State Fault Refusal :=
  match s.readRecord with
  | some r => if r.wait == .buffer && !s.noneSpare then done (s.resolve r) else nothing s
  | none => nothing s

/-- READ_DEVICE_WAIT_END (R71, R93): the device is READY again, and the current byte starts at forwarding. -/
def execReadDeviceWaitEnd (s : State) : Host.Outcome State Fault Refusal :=
  match s.readRecord with
  | some r => if r.wait == .device && s.isReady r.translation.device then done (s.resolve r) else nothing s
  | none => nothing s

/-- MODE_HOLD_END (R140): the access with hold MODE is dispatched in RUNNING, refused in FLUSHING and SAFE. -/
def execModeHoldEnd (s : State) : Host.Outcome State Fault Refusal :=
  if s.heldByMode then
    match s.control.mode with
    | .running | .flushing | .safe => done s.leaveModeHold
    | .starting | .reloading _ => nothing s
  else nothing s

end Sys2Proof.Machine
end

