-- ==== Sys2Proof/Machine/Dispatch.lean ====
section
/-! DEFINITION. One arm for each command: its meaning. -/

namespace Sys2Proof.Machine

/-- The effect of a command on everything but the queue of waiting commands. -/
def exec (i : Instr) (s : State) : Host.Outcome State Fault Refusal :=
  match i with
  | .reset bootA bootW scl sda => Sys2Proof.Machine.execReset bootA bootW scl sda s
  | .timeBaseTick traffic edges => Sys2Proof.Machine.execTimeBaseTick s traffic edges
  | .hostAccessTaken write half laneL laneU hd => Sys2Proof.Machine.execHostAccessTaken write half laneL laneU hd s
  | .accessEnd => Sys2Proof.Machine.execAccessEnd s
  | .withdrawal => Sys2Proof.Machine.execWithdrawal s
  | .waitingWriteRetry => Sys2Proof.Machine.execWaitingWriteRetry s
  | .verifyAllocationRetry => Sys2Proof.Machine.execVerifyAllocationRetry s
  | .readDeviceWaitEnd => Sys2Proof.Machine.execReadDeviceWaitEnd s
  | .modeHoldEnd => Sys2Proof.Machine.execModeHoldEnd s
  | .gatherDeadlineExpiry n => Sys2Proof.Machine.execGatherDeadlineExpiry n s
  | .busGrant => Sys2Proof.Machine.execBusGrant s
  | .streamOpenAddressed => Sys2Proof.Machine.execStreamOpenAddressed s
  | .streamOpenNacked reopened => Sys2Proof.Machine.execStreamOpenNacked reopened s
  | .streamByteReceived value => Sys2Proof.Machine.execStreamByteReceived value s
  | .parkDeadlineExpiry => Sys2Proof.Machine.execParkDeadlineExpiry s
  | .writeRunEnd outcome => Sys2Proof.Machine.execWriteRunEnd outcome s
  | .fillEnd outcome => Sys2Proof.Machine.execFillEnd outcome s
  | .verifyReadEnd bytes => Sys2Proof.Machine.execVerifyReadEnd bytes s
  | .verifyReadFailure outcome => Sys2Proof.Machine.execVerifyReadFailure outcome s
  | .probeDue device => Sys2Proof.Machine.execProbeDue device s
  | .probeEnd acknowledged => Sys2Proof.Machine.execProbeEnd acknowledged s
  | .foreignOpen line => Sys2Proof.Machine.execForeignOpen line s
  | .foreignClose => Sys2Proof.Machine.execForeignClose s
  | .foreignBusFree => Sys2Proof.Machine.execForeignBusFree s
  | .freeDeadline => Sys2Proof.Machine.execFreeDeadline s
  | .arbitrationLoss progress => Sys2Proof.Machine.execArbitrationLoss progress s
  | .stretchTimeout progress => Sys2Proof.Machine.execStretchTimeout progress s
  | .sclRiseAfterTimeout sda => Sys2Proof.Machine.execSclRiseAfterTimeout sda s
  | .busClearGrant => Sys2Proof.Machine.execBusClearGrant s
  | .busClearEnd freed => Sys2Proof.Machine.execBusClearEnd freed s
  | .sclHeldTimeout => Sys2Proof.Machine.execSclHeldTimeout s
  | .stuckCheck => Sys2Proof.Machine.execStuckCheck s
  | .recoveryWatchEnd => Sys2Proof.Machine.execRecoveryWatchEnd s
  | .sequenceStepEnd bytes => Sys2Proof.Machine.execSequenceStepEnd bytes s
  | .sequenceEnd outcome => Sys2Proof.Machine.execSequenceEnd outcome s
  | .frameBegin => Sys2Proof.Machine.execFrameBegin s
  | .frameEnd => Sys2Proof.Machine.execFrameEnd s
  | .unknownCommand code => Sys2Proof.Machine.execUnknownCommand code s
  | .getStatus => Sys2Proof.Machine.execGetStatus s
  | .getEvents => Sys2Proof.Machine.execGetEvents s
  | .acknowledgeEvents args => Sys2Proof.Machine.execAcknowledgeEvents args s
  | .setEventMask args => Sys2Proof.Machine.execSetEventMask args s
  | .peekFault => Sys2Proof.Machine.execPeekFault s
  | .dropFault args => Sys2Proof.Machine.execDropFault args s
  | .getBuffer args => Sys2Proof.Machine.execGetBuffer args s
  | .flush => Sys2Proof.Machine.execFlush s
  | .flushDone => Sys2Proof.Machine.execFlushDone s
  | .release args => Sys2Proof.Machine.execRelease args s
  | .reissue args => Sys2Proof.Machine.execReissue args s
  | .force args => Sys2Proof.Machine.execForce args s
  | .submitSequence args => Sys2Proof.Machine.execSubmitSequence args s
  | .getSequenceResult => Sys2Proof.Machine.execGetSequenceResult s
  | .abortSequence => Sys2Proof.Machine.execAbortSequence s
  | .reloadLayout => Sys2Proof.Machine.execReloadLayout s
  | .getLayout => Sys2Proof.Machine.execGetLayout s
  | .reloadStageAdvance => Sys2Proof.Machine.execReloadStageAdvance s
  | .recordReadNextAttempt => Sys2Proof.Machine.execRecordReadNextAttempt s
  | .startupRecordReadEnd bytes => Sys2Proof.Machine.execStartupRecordReadEnd bytes s
  | .reloadRecordReadEnd bytes => Sys2Proof.Machine.execReloadRecordReadEnd bytes s
  | .powerFailFlush => Sys2Proof.Machine.execPowerFailFlush s
  | .flushEnd => Sys2Proof.Machine.execFlushEnd s
  | .safeExit => Sys2Proof.Machine.execSafeExit s
  | .streamOpenDataNack index => Sys2Proof.Machine.execStreamOpenDataNack index s
  | .recordReadAttemptNacked outcome => Sys2Proof.Machine.execRecordReadAttemptNacked outcome s
  | .foreignLowPeriodEnd sda => Sys2Proof.Machine.execForeignLowPeriodEnd sda s

end Sys2Proof.Machine
end

