-- ==== Sys2Proof/Machine/Step.lean ====
section
/-! DEFINITION. The step of the bridge: the command at the front of the queue has its effect; with none waiting 50 ns pass on
the bus timer (DESIGN CHOICE, log entry 14). -/

namespace Sys2Proof.Machine

/-- The command at the front of the queue is taken from it and runs; with an empty queue the bus timer takes one step of 50 ns
(R106). -/
def step (s : State) : Host.Outcome State Fault Refusal :=
  match s.pending with
  | [] => done (s.pass 1)
  | c :: rest => exec c { s with pending := rest }

/-- The state with the command that a word spells at the front of the queue. No word spells one (DESIGN CHOICE, log
entry 13). -/
def State.withFetchWord (s : State) (nbits w : Nat) : State :=
  match decodeTableWord nbits w with
  | some c => { s with pending := c :: s.pending }
  | none => s

end Sys2Proof.Machine
end

