-- ==== Sys2Proof/Safety.lean ====
section
/-! DEFINITION. What every state of the bridge must satisfy, in the terms the statements use: the Event Unit (R159,
R162, R163), the Page Buffer Table (R20, R31, R43), the request list (R46), the bus state record (R105, R106), the
modes (R140, R169, R173), the layout (R13 to R16), and the end of every command. -/

namespace Sys2Proof.Machine

/-! ### The Event Unit -/

/-- R159, R162, R163: every count and the overflow count stand at most at 255, the log holds at most 8 records, and
their numbers are the last ones before the counter, each one above the number before it. -/
def EventUnit.WellKept (e : EventUnit) : Prop :=
  (∀ k : Fin 16, e.count k ≤ 255) ∧ e.overflow ≤ 255 ∧ e.log.length ≤ 8
    ∧ e.log.map FaultRecord.number
        = (List.range e.log.length).map fun i => e.counter - BitVec.ofNat 16 (e.log.length - i)

/-! ### The Page Buffer Table -/

/-- R31: the commit queue holds exactly the SEALED buffers, each once. -/
def State.QueueExact (s : State) : Prop :=
  s.table.queue.Nodup ∧ ∀ n : Index, n ∈ s.table.queue ↔ s.bufferState n = .sealed

/-- R20: whether two buffers hold the same page. -/
def State.samePage (s : State) (n m : Index) : Bool :=
  match (s.buffer n).hold, (s.buffer m).hold with
  | some h, some g => h.device == g.device && h.page == g.page
  | some _, none | none, some _ | none, none => false

/-- The generation of buffer `n`, 0 for a FREE one. -/
def State.generationOf (s : State) (n : Index) : Nat := ((s.buffer n).hold.map (·.generation)).getD 0

/-- R20: the generations of the buffers of a page are 0 up to their number minus one, each used once. -/
def State.GenerationsRanked (s : State) : Prop :=
  ∀ n : Index, (s.buffer n).hold.isSome →
    s.generationOf n < (allIndices.filter (s.samePage n)).length
      ∧ ∀ m : Index, m ≠ n → s.samePage n m → s.generationOf m ≠ s.generationOf n

/-- R35: no dirty buffer of a page is newer than its GATHER buffer, since every later write to the page merges into it. -/
def State.GatherNewest (s : State) : Prop :=
  ∀ n m : Index, s.samePage n m → s.bufferState n = .gather → (s.bufferState m).dirty →
    s.generationOf m ≤ s.generationOf n

/-- R20: for any page, at most one buffer is in GATHER and at most one is CLEAN. -/
def State.PagesSingle (s : State) : Prop :=
  ∀ n m : Index, n ≠ m → s.samePage n m →
    ¬(s.bufferState n = .gather ∧ s.bufferState m = .gather) ∧ ¬(s.bufferState n = .clean ∧ s.bufferState m = .clean)

/-- R43: for any device, at most one buffer is in FILL, COMMIT or CYCLE. -/
def State.OneCommitEach (s : State) : Prop :=
  ∀ n m : Index, n ≠ m → s.deviceOf n = s.deviceOf m → ¬((s.bufferState n).committing ∧ (s.bufferState m).committing)

/-- R46: buffer `n` has a transaction ready or in flight: it is in FILL or COMMIT. -/
def State.inFillOrCommit (s : State) (n : Index) : Prop := s.bufferState n = .fill ∨ s.bufferState n = .commit

/-- R46: the request list names buffers in FILL or COMMIT, each once, and none whose transaction is in flight. -/
def State.RequestsOrdered (s : State) : Prop :=
  s.engine.requests.Nodup ∧ (∀ n ∈ s.engine.requests, s.inFillOrCommit n)
    ∧ ∀ n : Index, s.job = some (.run n) ∨ s.job = some (.fill n) → n ∉ s.engine.requests ∧ s.inFillOrCommit n

/-! ### The bus -/

/-- R104, R109, R110, R121: the half bit `h` is one of what the bus carries: of the phase of the transaction in progress, of a
close, or of a bus clear, of at most nine clocks. -/
def Bus.places (b : Bus) (h : HalfBit) : Bool :=
  let carries := fun p : BusPhase → Bool => b.status == .owned && b.clear.isNone && b.transaction.any fun x => p x.phase
  match h with
  | .open => carries fun p => p == .open
  | .reopenLow | .reopenHigh | .reopenFall => carries fun p => p == .reopen
  | .clockLow bits | .clockHigh bits =>
    decide (bits.length ≤ 8) && carries fun p => p == .address || p == .send || p == .receive
  | .closeLow (some _) | .closeHigh (some _) => carries fun p => p == .address || p == .send
  | .closeLow none | .closeHigh none =>
    b.clear.isSome || (b.status == .owned && b.transaction.isNone) || carries fun p => p == .close
  | .pulseLow n | .pulseHigh n => b.clear.isSome && decide (1 ≤ n) && decide (n ≤ 9)

/-- R105 to R107, R120, R121, R123: the low-period start is present exactly while SCL is low, the next check time
exactly in STUCK, the held-data start exactly in FOREIGN with SCL high and SDA low; an idle-high start stands for both
lines high, which hold in FREE; a transaction, a wait for SCL, a bus clear, a recovery watch and a half bit have their states. -/
structure Bus.WellKept (b : Bus) : Prop where
  lowPeriod : b.lowStart.isSome ↔ b.scl = false
  nextCheck : b.nextCheck.isSome ↔ b.status = .stuck
  heldData : b.heldData.isSome ↔ b.status = .foreign ∧ b.scl = true ∧ b.sda = false
  idleHigh : b.idleHigh.isSome → b.scl = true ∧ b.sda = true
  free : b.status = .free → b.scl = true ∧ b.sda = true
  idle : b.status = .free ∨ b.status = .foreign ∨ b.status = .stuck → b.transaction = none
  owned : b.status = .owned → b.transaction.isSome → b.freeAt = none ∧ b.clear = none ∧ b.awaitRise = false
  await : b.awaitRise = true → b.status = .owned ∧ b.transaction = none ∧ b.wire = none ∧ b.freeAt = none ∧ b.clear = none
  clearing : b.clear = some .grant ∨ b.clear = some .afterTimeout → b.freeAt = none
  grantClear : b.clear = some .grant → b.status = .clearing
  timeoutClear : b.clear = some .afterTimeout → b.status = .owned ∧ b.transaction = none
  checkClear : b.clear = some .stuckCheck → b.status = .stuck ∧ b.watch = none
  watch : b.watch.isSome → b.status = .stuck ∧ b.scl = true ∧ b.sda = true
  wire : b.wire.all fun w => b.places w.half

/-- R106, R157: the bus timer stands within the present step of the time base (DESIGN CHOICE, log entry 4). -/
def State.TimerInTick (s : State) : Prop := (s.bus.timer - s.tickStart).toNat < 2000

/-! ### The modes -/

/-- R140, R166, R169, R173: an access waits with a block only in RUNNING, in STARTING every buffer is FREE, RELOADING
holds no HELD buffer, and in SAFE no buffer is in GATHER, SEALED, FILL, COMMIT, CYCLE or VERIFY. -/
structure State.ModeOrdered (s : State) : Prop where
  waits : s.control.mode ≠ .running → s.heldByMode ∨ s.port = .idle ∨ s.hrdy
  starting : s.control.mode = .starting → ∀ n : Index, s.bufferState n = .free
  reloading : s.control.mode.isReloading → ∀ n : Index, s.bufferState n ≠ .held
  safe : s.control.mode = .safe → ∀ n : Index, (s.bufferState n).working = false

/-- R88, R170, R171: while the stream that was open when a reload emptied the read-ahead queue is open, the queue is empty
(DEDUCED, log entry 7). -/
def ReadPath.EmptiedKept (r : ReadPath) : Prop := r.dropsAhead = true → r.ahead.bytes = [] ∧ r.stream ≠ .closed

/-! ### The layout -/

/-- R1, R2, R14: what holds of every device of a layout that validation has accepted. -/
structure DeviceEntry.Valid (e : DeviceEntry) : Prop where
  addressBytes : e.addressBytes = 1 ∨ e.addressBytes = 2
  blockBits : e.blockBits ≤ 3
  capacityCode : e.capacityCode ≤ 10
  pageCode : e.pageCode ≤ 3
  cycleLimit : e.kind = .cycled → 1 ≤ e.cycleLimit ∧ e.cycleLimit ≤ 63
  targets : 0x08 ≤ e.target.toNat ∧ e.target.toNat + 2 ^ e.blockBits - 1 ≤ 0x77
  aligned : e.target.toNat % 2 ^ e.blockBits = 0
  fits : e.capacity ≤ e.blockSize * 2 ^ e.blockBits

/-- R3, R15: what holds of a window on the device `e`. -/
structure WindowEntry.Valid (w : WindowEntry) (e : DeviceEntry) : Prop where
  sizeCode : w.sizeCode ≤ 10
  aligned : w.hostBase * 256 % w.size = 0
  inHostSpace : w.hostBase * 256 + w.size ≤ 1048576
  inDevice : w.deviceOffset * 256 + w.size ≤ e.capacity
  checkedPage : w.checked = true → 16 ≤ e.pageSize

/-- R16: two windows share no host address and no offset of one device. -/
def WindowEntry.Apart (v w : WindowEntry) : Prop :=
  (v.hostBase * 256 + v.size ≤ w.hostBase * 256 ∨ w.hostBase * 256 + w.size ≤ v.hostBase * 256)
    ∧ (v.device = w.device →
        v.deviceOffset * 256 + v.size ≤ w.deviceOffset * 256 ∨ w.deviceOffset * 256 + w.size ≤ v.deviceOffset * 256)

/-- R5: the ranges of the parameters. -/
structure Params.Valid (p : Params) : Prop where
  poll : 1 ≤ p.poll ∧ p.poll ≤ 16
  park : p.park ≤ 255
  stretch : 1 ≤ p.stretch ∧ p.stretch ≤ 255
  retries : p.retries ≤ 7
  depth : p.depth ≤ 8
  reserve : p.reserve ≤ 4

/-- R13 to R16: what holds of a layout in force. -/
structure Layout.Valid (l : Layout) : Prop where
  params : l.params.Valid
  devices : ∀ i e, l.devices.get i = some e → e.Valid
  targetsApart : ∀ i j d e, i ≠ j → l.devices.get i = some d → l.devices.get j = some e →
    ∀ t : BitVec 7, ¬(d.answersAt t ∧ e.answersAt t)
  windows : ∀ j w, l.windows.get j = some w → ∃ e, l.devices.get w.device = some e ∧ w.Valid e
  windowsApart : ∀ i j v w, i ≠ j → l.windows.get i = some v → l.windows.get j = some w → v.Apart w

/-- R13, R166, R168: the layout in force is valid, and so is the fallback layout that the straps lead to. -/
structure State.LayoutKept (s : State) : Prop where
  layout : s.layout.Valid
  bootTarget : 0x50 ≤ s.control.bootTarget.toNat ∧ s.control.bootTarget.toNat ≤ 0x57
  bootBytes : s.control.bootBytes = 1 ∨ s.control.bootBytes = 2

/-- The consequences that every command ends with are made: a further settlement changes nothing. -/
def State.Settled (s : State) : Prop := s.settle = s

end Sys2Proof.Machine
end

