-- ==== Sys2Proof/Certificates/Slice0/Obligations.lean ====
section
/-! DEFINITION. The statements for the provers, each an `Obligations.<Name> : Prop`, from the numbered rules of spec/.
A command's new state is often given up to `State.settle`, the consequences that every command ends with (log entry 6);
`Obligations.SettlementChangesOnlyTheseParts` says what those are. -/

namespace Sys2Proof.Machine

/-! ### Words the statements use -/

/-- Whether an access is WAITING. -/
def Access.isWaiting : Access → Bool
  | .waiting _ _ => true
  | .idle | .answered _ _ => false

/-- Whether a stream is PARKED. -/
def Stream.isParked : Stream → Bool
  | .parked _ _ => true
  | .closed | .opening _ | .running _ | .closing _ => false

/-- No access waits, no reload is under way and no stream is parked: a command has no consequence of R26, R37, R71, R80
or R171 beside its own effect. -/
def State.undisturbed (s : State) : Bool :=
  !s.port.isWaiting && !s.control.mode.isReloading && !s.reads.stream.isParked

/-- R147: the command of a code, with the argument bytes received. -/
def serviceInstr (code : Byte) (args : List Byte) : Option Instr :=
  if code = 0x01#8 then some .getStatus
  else if code = 0x02#8 then some .getEvents
  else if code = 0x03#8 then some (.acknowledgeEvents args)
  else if code = 0x04#8 then some (.setEventMask args)
  else if code = 0x05#8 then some .peekFault
  else if code = 0x06#8 then some (.dropFault args)
  else if code = 0x07#8 then some (.getBuffer args)
  else if code = 0x08#8 then some .flush
  else if code = 0x09#8 then some (.release args)
  else if code = 0x0A#8 then some (.reissue args)
  else if code = 0x0B#8 then some (.force args)
  else if code = 0x0C#8 then some (.submitSequence args)
  else if code = 0x0D#8 then some .getSequenceResult
  else if code = 0x0E#8 then some .abortSequence
  else if code = 0x0F#8 then some .reloadLayout
  else if code = 0x10#8 then some .getLayout
  else none

/-- The end of a service command whose effect gave `t`: the frame holds the reply and the response, and a rising edge of SCK
has come last (R146, R150). -/
def State.replied (t : State) (code : Byte) (args : List Byte) (reply : Reply) (response : List Byte) : State :=
  ((t.setFrame (.answering code args args.length 0 reply response 0)).sckHigh).settle

/-- R146: the bits of a byte in the order in which they are sampled, the most significant first. -/
def bitsOf (v : Byte) : List Bool := (List.range 8).map fun i => v.getLsbD (7 - i)

/-- R146: `bits`, sampled of the current byte so far, are the first ones of `v`, and its eighth has not been sampled. -/
def partOf (bits : List Bool) (v : Byte) : Prop := bits.length < 8 ∧ bits <+: bitsOf v

/-- R146: the frame stands in COMMAND, the bits of its command byte sampled so far being those of `code`. -/
def State.takesCode (s : State) (code : Byte) : Prop := ∃ bits, s.service.frame = .command bits ∧ partOf bits code

/-- R147: the code of the command that a frame has taken. -/
def Frame.commandTaken : Frame → Option Byte
  | .answering code _ _ _ _ _ _ => some code
  | .idle | .command _ | .arguments _ _ _ _ => none

/-- R150: from `s` to `t` the edges of SCK that the tick `c` brings take the command of `code` (log entry 16). -/
def tookAtTick (c : Instr) (s t : State) (code : Byte) : Prop :=
  (∃ traffic edges, c = .timeBaseTick traffic edges) ∧ s.service.frame.commandTaken = none
    ∧ t.service.frame.commandTaken = some code

/-- R138: what the port latches at the taking edge. -/
def latchedRequest (write : Bool) (half : BitVec 19) (laneL laneU : Bool) (hd : BitVec 16) : HostRequest :=
  { write := write, half := half, laneL := laneL, laneU := laneU
    data := if write then (if laneL then [lowByte hd] else []) ++ (if laneU then [highByte hd] else []) else [] }

/-- R144: the event kind of a refusal. -/
def refusalEvent (write : Bool) : EventKind := if write then .writeRefused else .readFailed

/-- R143: the answer to a refused access. -/
def refusedWith (write : Bool) : Answer := { herr := true, hd := if write then none else some 0#16 }

/-- R20: whether buffer `m` holds page `p` of device `d`. -/
def State.ofPage (s : State) (d : Index) (p : Nat) (m : Index) : Prop :=
  ∃ h, (s.buffer m).hold = some h ∧ h.device = d ∧ h.page = p

/-- R20: `g` is one above the highest generation of the page's buffers, 0 where there is none. -/
def State.isNextGeneration (s : State) (d : Index) (p g : Nat) : Prop :=
  (∀ m, s.ofPage d p m → s.generationOf m < g)
    ∧ ((g = 0 ∧ ∀ m, ¬s.ofPage d p m) ∨ ∃ m, s.ofPage d p m ∧ s.generationOf m + 1 = g)

/-- R21: a GATHER buffer after the write `req` has merged into it. -/
def mergedInto (s : State) (b : Buffer) (h : PageHold) (t : Translation) (data : List Byte) : Buffer :=
  { image := b.image.merge t.positions data
    hold := some { h with written := h.written ||| Mask.of t.positions, source := h.source ||| Mask.of t.positions
                          lastWrite := s.uptime, phase := .gather (s.uptime + BitVec.ofNat 32 t.gatherTime) } }

/-- A write of HD that translates to `t` leaves `u` and its consequences, at its taking edge and at the end of its wait. -/
def State.writeGives (s : State) (half : BitVec 19) (laneL laneU : Bool) (hd : BitVec 16) (t : Translation) (u : State) :
    Prop :=
  let req := latchedRequest true half laneL laneU hd
  (s.port = .idle → s.control.mode = .running → laneL || laneU → s.layout.classify req = .mapped t →
      exec (.hostAccessTaken true half laneL laneU hd) s = .next u.settle)
    ∧ (s.port = .waiting req (.buffers t) → exec .waitingWriteRetry s = .next u.settle)

/-- R30: a buffer SEALED as it stands, without the forced flag. -/
def Buffer.asSealed (b : Buffer) : Buffer := { b with hold := b.hold.map fun h => { h with phase := .sealed false } }

/-- R31, R43: buffer `n` is not in the queue, and no buffer in it is one that a selection takes. -/
def State.notQueued (s : State) (n : Index) : Prop := (∀ m ∈ s.table.queue, s.admits m = false) ∧ n ∉ s.table.queue

/-- R30, R44: buffer `n`, sealed at the last event, is SEALED, or taken to FILL or COMMIT by its selection. -/
def State.leftGather (s : State) (n : Index) : Prop :=
  s.bufferState n = .sealed ∨ s.bufferState n = .fill ∨ s.bufferState n = .commit

/-- R34: buffer `c`, which holds `h`, is FREE: its image stays, and the generations of its page close up. -/
def State.withFreed (s : State) (c : Index) (h : PageHold) : State :=
  { s with table := { s.table with buffers := Vector.ofFn fun m : Index =>
      { s.buffer m with hold := if m = c then none else (s.buffer m).hold.map fun g =>
          if g.device = h.device ∧ g.page = h.page ∧ h.generation < g.generation then
            { g with generation := g.generation - 1 } else g } } }

/-- The number of buffers FREE or CLEAN. -/
def State.spareBuffers (s : State) : Nat :=
  (allIndices.filter fun m => s.bufferState m == .free || s.bufferState m == .clean).length

/-- R35: buffer `n` supplies position `pos` of a page: it is dirty with the position in its source mask, and every other
such buffer of the page has a lower generation. -/
def State.supplies (s : State) (d : Index) (p pos : Nat) (n : Index) : Prop :=
  let has := fun m => s.ofPage d p m ∧ (s.bufferState m).dirty ∧ ∃ h, (s.buffer m).hold = some h ∧ h.source.has pos
  has n ∧ ∀ m, has m → m ≠ n → s.generationOf m < s.generationOf n

/-- R35: no buffer of a page that may answer has the position in its source mask. -/
def State.heldNowhere (s : State) (d : Index) (p pos : Nat) : Prop :=
  ∀ m h, (s.buffer m).hold = some h → h.device = d → h.page = p →
    ((s.bufferState m).dirty ∨ s.bufferState m = .clean) → h.source.has pos = false

/-- The table with buffer `n` replaced. -/
def State.tableWith (s : State) (n : Index) (b : Buffer) (queue : List Index) : BufferTable :=
  { s.table with buffers := s.table.buffers.set n.val b n.isLt, queue := queue }

/-- R43, conditions 2 and 3: the device of buffer `n` is READY, and none of its buffers is in FILL, COMMIT or CYCLE. -/
def State.deviceAdmits (s : State) (d : Index) : Prop :=
  (s.record d).status = .ready ∧ ∀ m, s.deviceOf m = some d → (s.bufferState m).committing = false

/-- The gather deadline of a buffer has been reached, on the time elapsed since its last write (R28). -/
def deadlineReached (lastWrite deadline now : Word) : Prop := (deadline - lastWrite).toNat ≤ (now - lastWrite).toNat

/-- The window that holds page `p` of device `d` gives it the attributes `checked` and `mergeFill` (effective, R4). -/
def State.pageAttributes (s : State) (d : Index) (p : Nat) (checked mergeFill : Bool) : Prop :=
  ∃ w, s.windowEntryOf d p = some w ∧ w.checked = checked ∧ w.effectiveMergeFill = mergeFill

/-- R106, R157: the time `now` of the lines, on the bus timer and on the time base (log entry 36). -/
def Bus.lineTime (b : Bus) (now : Stamp) : LineTime := { timer := b.timer, stamp := now }

/-- R104: half a bit time of a bus rate, in steps of 50 ns: 5 µs, 1.25 µs, 0.5 µs. -/
def BusRate.halfTime : BusRate → Nat
  | .kHz100 => 100
  | .kHz400 => 25
  | .kHz1000 => 10

/-- R104: the bus-free time of a bus rate, in steps of 50 ns: 4.7 µs, 1.3 µs, 0.5 µs. -/
def BusRate.freeTime : BusRate → Nat
  | .kHz100 => 94
  | .kHz400 => 26
  | .kHz1000 => 10

/-- R104, R108: the bus after a close sent now, at which the transaction was reported. -/
def Bus.afterClose (b : Bus) (rate : BusRate) (now : Stamp) : Bus :=
  { b with transaction := none, wire := none, scl := true, sda := true, lowStart := none, idleHigh := some (b.lineTime now)
           heldData := none, freeAt := some (b.timer + BitVec.ofNat 32 rate.freeTime) }

/-- R78, R104, R120, log entry 47: the bus from where the bridge begins to send a close of which nothing more is reported. -/
def Bus.closing (b : Bus) (rate : BusRate) : Bus :=
  { b with transaction := none, wire := some { half := .closeLow none, since := b.timer }, scl := true, sda := true
           lowStart := none, idleHigh := none, heldData := none
           freeAt := some (b.timer + BitVec.ofNat 32 (2 * rate.halfTime + rate.freeTime)) }

/-- R104, R109: `h` is the half bit with which the phase `p` begins, and each byte of it; a park has none. -/
def BusPhase.beginsWith (p : BusPhase) (h : HalfBit) : Prop :=
  match p with
  | .open => h = .open
  | .reopen => h = .reopenLow
  | .address | .send | .receive => h = .clockLow []
  | .close => h = .closeLow none
  | .park => False

/-- R104, R121, log entry 47: `h` is the half bit in progress, begun at `since`: with none noted, that with which a bus clear
or the phase of the transaction begins now. -/
def State.inHalf (s : State) (h : HalfBit) (since : Word) : Prop :=
  s.bus.wire = some { half := h, since := since }
    ∨ s.bus.wire = none ∧ since = s.bus.timer
      ∧ (s.bus.clear ≠ none ∧ h = .pulseLow 1
        ∨ s.bus.clear = none ∧ s.bus.status = .owned ∧ ∃ x, s.bus.transaction = some x ∧ x.phase.beginsWith h)

/-- R104, R112, R121: SCL is driven low in the half bit `h`. -/
def HalfBit.holdsScl (h : HalfBit) : Prop :=
  h = .reopenLow ∨ (∃ r, h = .closeLow r) ∨ (∃ bits, h = .clockLow bits) ∨ ∃ n, h = .pulseLow n

/-- R120: the half bit that a foreign low period lengthens, where the bridge finds SCL low in `h`. -/
def HalfBit.onRelease : HalfBit → HalfBit
  | .reopenLow => .reopenHigh
  | .closeLow r => .closeHigh r
  | .clockLow bits => .clockHigh bits
  | .pulseLow n => .pulseHigh n
  | .open => .open
  | .reopenHigh => .reopenHigh
  | .reopenFall => .reopenFall
  | .closeHigh r => .closeHigh r
  | .clockHigh bits => .clockHigh bits
  | .pulseHigh n => .pulseHigh n

/-- Log entry 4: the steps of 50 ns that the bus timer can still take before the time base takes its next step. -/
def State.stepsLeft (s : State) : Nat := 1999 - (s.bus.timer - BitVec.ofNat 32 (2000 * s.now.steps)).toNat

/-- R133: the bytes of the SEND step in progress that have been sent are `sent`; of any other transaction the number says
nothing, and is 0. -/
def State.sendsByte (s : State) (sent : Nat) : Prop :=
  (sent = 0 ∧ ∀ steps outLength received retries current outPos abort n check,
      s.slot.state = .running steps outLength received retries current outPos abort →
      stepAt steps current ≠ some (.send n check))
    ∨ ∃ steps outLength received retries current outPos abort n check,
      s.slot.state = .running steps outLength received retries current outPos abort
        ∧ stepAt steps current = some (.send n check) ∧ sent = n - s.unsent

/-- R121: SDA is low, and no pulse of the bus clear has found it high: its close has not begun. -/
def State.stillHeld (s : State) : Prop :=
  s.bus.sda = false ∧ ∀ w, s.bus.wire = some w → ∃ k, w.half = .pulseLow k ∨ w.half = .pulseHigh k

/-- R110: the engine sends the close that follows a refused byte. -/
def State.refusing (s : State) : Bool :=
  s.bus.wire.any fun w => match w.half with
    | .closeLow r | .closeHigh r => r.isSome
    | .open | .reopenLow | .reopenHigh | .reopenFall | .clockLow _ | .clockHigh _ | .pulseLow _ | .pulseHigh _ => false

/-- R111, log entry 20: of the byte in progress, the bits received are the first ones of the first of `bytes`. -/
def State.agrees (s : State) (bytes : List Byte) : Bool :=
  match bytes, s.bus.transaction, s.bus.wire with
  | v :: _, some x, some w =>
    match w.half with
    | .clockLow bits | .clockHigh bits => x.phase != .receive || (bits.take 8).isPrefixOf (bitsOf v)
    | .open | .reopenLow | .reopenHigh | .reopenFall | .closeLow _ | .closeHigh _ | .pulseLow _ | .pulseHigh _ => true
  | [], _, _ | _ :: _, none, _ | _ :: _, some _, none => true

/-- R49, R114: the command that reports the end of the transaction of `j` with its close, after the byte that a NACK has
refused, or after none. -/
def State.closeCommand (s : State) (j : Job) (r : Option Refused) : Option Instr :=
  match j, r with
  | .run _, none => some (.writeRunEnd .completed)
  | .run _, some (.address _) => some (.writeRunEnd .addressNack)
  | .run _, some (.byte i) => some (.writeRunEnd (.dataNack i))
  | .fill _, none => some (.fillEnd (.completed []))
  | .fill _, some (.address reopened) => some (.fillEnd (.addressNack reopened))
  | .fill _, some (.byte i) => some (.fillEnd (.dataNack i))
  | .verify _, none => some (.verifyReadEnd [])
  | .verify _, some (.address reopened) => some (.verifyReadFailure (.addressNack reopened))
  | .verify _, some (.byte i) => some (.verifyReadFailure (.dataNack i))
  | .recordRead _, none =>
    some (if s.control.mode = .starting then .startupRecordReadEnd [] else .reloadRecordReadEnd [])
  | .recordRead _, some (.address _) => some (.recordReadAttemptNacked .address)
  | .recordRead _, some (.byte i) => some (.recordReadAttemptNacked (.data i))
  | .probe _, none => some (.probeEnd true)
  | .probe _, some _ => some (.probeEnd false)
  | .sequence, none => some (.sequenceEnd .closed)
  | .sequence, some (.address _) => some (.sequenceEnd .addressNack)
  | .sequence, some (.byte i) => some (.sequenceEnd (.dataNack i))
  | .stream, none => none
  | .stream, some (.address reopened) => some (.streamOpenNacked reopened)
  | .stream, some (.byte i) => some (.streamOpenDataNack i)

/-- R48, R50: a device that enters CYCLING now. -/
def State.cyclingNow (s : State) : DeviceRecord :=
  { status := .cycling s.now { next := { since := s.now, period := s.layout.params.poll }, due := false }, nacks := 0 }

/-- The transaction of `j` stands in an OWNED bus, no other party holding SCL, and no byte of it has been refused. -/
def State.carries (s : State) (j : Job) : Prop :=
  s.bus.status = .owned ∧ s.job = some j ∧ s.bus.lowStart = none ∧ s.refusing = false

/-- The state with the bus record replaced. -/
def State.withBus (s : State) (b : Bus) : State := { s with bus := b }

/-- The state with the transaction in progress replaced, a half bit of it to begin. -/
def State.withTransaction (s : State) (x : Transaction) : State :=
  s.withBus { s.bus with transaction := some x, wire := none }

/-- R49: the target address of device `d` has been acknowledged: the count of an IMMEDIATE device is 0. -/
def State.acked (s : State) (d : Index) : State :=
  if s.isImmediate d then { s with engine := { s.engine with
    devices := s.engine.devices.set d.val { s.record d with nacks := 0 } d.isLt } } else s

/-- The state with the attempt record replaced. -/
def State.withRecordRead (s : State) (r : RecordRead) : State :=
  { s with control := { s.control with recordRead := some r } }

/-- The state in the mode `m` with PFW# at `pfw`. -/
def State.withMode (s : State) (m : Mode) (pfw : Bool) : State := { s with control := { s.control with mode := m, pfw := pfw } }

/-- R116: `g` is the first request of the arbiter's order that applies. -/
def State.firstInOrder (s : State) (g : Grant) : Prop :=
  let commit := s.engine.requests ≠ []
  let direct := s.slot.state.code = 1
  let promotedCommit := commit ∧ s.bus.passCommit = 4
  let promotedDirect := direct ∧ s.bus.passDirect = 4
  let noneAhead := s.bus.hostReads = [] ∧ ∀ d : Index, s.probeDue d = false
  match g with
  | .commit => promotedCommit ∧ ¬(promotedDirect ∧ s.bus.lastGranted = .commit)
      ∨ ¬promotedCommit ∧ ¬promotedDirect ∧ noneAhead ∧ commit ∧ ¬(direct ∧ s.bus.lastGranted = .commit)
  | .direct => promotedDirect ∧ ¬(promotedCommit ∧ s.bus.lastGranted = .direct)
      ∨ ¬promotedCommit ∧ ¬promotedDirect ∧ noneAhead ∧ direct ∧ ¬(commit ∧ s.bus.lastGranted = .direct)
  | .hostRead q => ¬promotedCommit ∧ ¬promotedDirect ∧ s.bus.hostReads.head? = some q
  | .probe => ¬promotedCommit ∧ ¬promotedDirect ∧ s.bus.hostReads = [] ∧ ∃ d : Index, s.probeDue d

/-- R116, R117: the host-read requests, the last-granted mark and the pass counts after the grant of `g`. -/
def State.arbiterAfter (s : State) (g : Grant) (b : Bus) : Prop :=
  match g with
  | .hostRead _ => b.hostReads = s.bus.hostReads.tail ∧ b.lastGranted = s.bus.lastGranted
      ∧ b.passCommit = (if s.engine.requests = [] then 0 else min 4 (s.bus.passCommit + 1))
      ∧ b.passDirect = (if s.slot.state.code = 1 then min 4 (s.bus.passDirect + 1) else 0)
  | .probe => b.hostReads = s.bus.hostReads ∧ b.lastGranted = s.bus.lastGranted ∧ b.passCommit = 0 ∧ b.passDirect = 0
  | .commit => b.hostReads = s.bus.hostReads ∧ b.lastGranted = .commit ∧ b.passCommit = 0 ∧ b.passDirect = 0
  | .direct => b.hostReads = s.bus.hostReads ∧ b.lastGranted = .direct ∧ b.passCommit = 0 ∧ b.passDirect = 0

/-- R8: the memory address bytes of offset `x` of a device, the high byte first. -/
def memoryAddress (e : DeviceEntry) (x : Nat) : List Byte :=
  let a := x % 256 ^ e.addressBytes
  if e.addressBytes = 2 then [BitVec.ofNat 8 (a / 256), BitVec.ofNat 8 a] else [BitVec.ofNat 8 a]

/-- R104, R109: the record of a transaction at its grant: it opens in the direction `read` and has `toSend` to send after
its address byte. -/
def begun (job : Job) (target : BitVec 7) (read : Bool) (remaining : Option Nat) (toSend : List Byte) : Option Transaction :=
  some { job := job, target := target, read := read, phase := .open, byteIndex := 0, remaining := remaining
         toSend := toSend, received := [] }

/-- R51, R59, R63, R77, R94, R131, R167: the transaction that the grant of `g` begins, with the bytes it sends, and what it
makes of its requester. -/
def State.grantedAs (s t : State) (g : Grant) : Prop :=
  match g with
  | .hostRead (.streamOpen d x) =>
    t.bus.transaction = begun .stream ((s.device d).targetOf x) false none (memoryAddress (s.device d) x)
      ∧ t.engine = s.engine ∧ t.slot = s.slot
      ∧ t.reads = { stream := .opening { device := d, next := x, last := (s.device d).lastOffset x }
                    ahead := { device := 0, first := 0, bytes := [] }, dropsAhead := false }
  | .hostRead (.verify n) => t.engine = s.engine ∧ t.slot = s.slot ∧ t.reads = s.reads
      ∧ ∀ h, (s.buffer n).hold = some h →
          let start := h.page * s.pageSizeOf h
          t.bus.transaction = begun (.verify n) ((s.device h.device).targetOf start) false (some (s.pageSizeOf h))
            (memoryAddress (s.device h.device) start)
  | .hostRead .recordRead => t.engine = s.engine ∧ t.slot = s.slot ∧ t.reads = s.reads
      ∧ t.bus.transaction = begun (.recordRead false) s.control.bootTarget false (some 144)
          (List.replicate s.control.bootBytes 0x00#8)
  | .probe => t.engine.requests = s.engine.requests ∧ t.slot = s.slot ∧ t.reads = s.reads
      ∧ ∃ d p, (s.record d).status.probe = some p ∧ p.due
          ∧ (∀ e q, (s.record e).status.probe = some q → q.due →
              q.next.time.elapsed s.now < p.next.time.elapsed s.now
                ∨ q.next.time.elapsed s.now = p.next.time.elapsed s.now ∧ d ≤ e)
          ∧ t.bus.transaction = begun (.probe d) (s.device d).target false none []
          ∧ t.record d = { s.record d with status := (s.record d).status.withProbe { p with due := false } }
          ∧ ∀ e, e ≠ d → t.record e = s.record e
  | .commit => ∀ n rest h, s.engine.requests = n :: rest → (s.buffer n).hold = some h →
      let e := s.device h.device
      let start := h.page * s.pageSizeOf h
      t.engine = { s.engine with requests := rest } ∧ t.slot = s.slot
        ∧ (∀ forced, h.phase = .fill forced → t.reads = s.reads ∧
            let span : Run := if s.isChecked h.device h.page then { first := 0, count := s.pageSizeOf h }
              else writtenSpan h.written (s.pageSizeOf h)
            t.bus.transaction =
              begun (.fill n) (e.targetOf start) false (some span.count) (memoryAddress e (start + span.first)))
        ∧ ∀ forced run runs, h.phase = .commit forced (run :: runs) →
            t.bus.transaction = begun (.run n) (e.targetOf start) false (some run.count)
              (memoryAddress e (start + run.first)
                ++ (List.range run.count).map fun i => (s.buffer n).image.byte (run.first + i))
            ∧ (s.reads.ahead.device = h.device → t.reads.ahead.bytes = [])
            ∧ (s.reads.ahead.device ≠ h.device → t.reads = s.reads)
  | .direct => t.engine = s.engine ∧ t.reads = s.reads
      ∧ ∀ steps outLength received retries, s.slot.state = .waiting steps outLength received retries →
        t.slot = { s.slot with state := .running steps outLength 0 retries 1 0 false }
          ∧ ∀ target read rest, steps = .open target read :: rest → t.bus.transaction = begun .sequence target read none []

/-- R70: the read `r` of `req` is one that the stream at `p` serves. -/
def State.streamServes (s : State) (p : StreamPos) (req : HostRequest) (r : ReadRecord) : Prop :=
  s.port = .waiting req (.readPath r) ∧ req.write = false ∧ r.wait = .none ∧ r.translation.checked = false
    ∧ r.translation.device = p.device

/-- No access waits with the Read Path. -/
def State.noReadWaits (s : State) : Prop := ∀ req r, s.port ≠ .waiting req (.readPath r)

/-- R79, R80, R81: what becomes of a RUNNING stream at `p` with no read to serve and `entries` bytes in the queue. A stream
whose queue a reload has emptied closes, the demand lifted or not (log entry 7). -/
def State.streamOnward (s : State) (p : StreamPos) (entries : Nat) : Stream :=
  if s.otherWaits || s.control.mode.demandsClose || s.reads.dropsAhead then .closing p
  else if entries < s.layout.params.depth then .running p
  else if s.layout.params.park = 0 then .closing p
  else .parked p { since := s.now, period := s.layout.params.park }

/-- R72: the queue `a` with the byte `v` of the stream at `p` at its tail. -/
def ReadAhead.joined (a : ReadAhead) (p : StreamPos) (v : Byte) : ReadAhead :=
  if a.bytes = [] then { device := p.device, first := p.next, bytes := [v] } else { a with bytes := a.bytes ++ [v] }

/-- Log entry 4: the time `awaited` of the bus timer, set at most `span` steps of 50 ns ahead, has passed, or passes before
the next step of the time base. -/
def State.comesDue (s : State) (awaited : Word) (span : Nat) : Prop :=
  awaited = s.bus.timer ∨ span < (awaited - s.bus.timer).toNat
    ∨ (awaited - BitVec.ofNat 32 (2000 * s.now.steps)).toNat < 2000

/-- Log entry 4: the bus timer when an event awaited at `awaited`, set at most `span` steps ahead, is taken. -/
def Bus.timerAt (b : Bus) (awaited : Word) (span : Nat) : Word :=
  if (awaited - b.timer).toNat ≤ span then awaited else b.timer

/-- R119, R120, log entry 25: the transaction in progress can be cut off with the outcome `c`, by the lines and the times; a
close can be stretched, and loses nothing. -/
def State.canBeCut (s : State) (c : CutOff) : Prop :=
  s.bus.status = .owned ∧ s.phase ≠ some .park
    ∧ match c with
      | .lost => s.bus.lowStart = none ∧ s.phase ≠ some .close
      | .timeout => ∃ start, s.bus.lowStart = some start ∧ s.layout.params.stretch ≤ start.elapsed s.now

/-- R119, log entry 25: the transaction in progress has yet to release SDA on a bit that it sends: of an address byte, or of
a byte that is not 00h. -/
def State.hasBitToRelease (s : State) : Prop :=
  ∃ x, s.bus.transaction = some x
    ∧ (x.phase = .open ∨ x.phase = .address ∨ x.phase = .reopen ∨ x.phase = .send ∧ ∃ v ∈ x.toSend, v ≠ 0x00#8)

/-- R110, log entry 15: an address NACK can still end the transaction in progress: on its open, or on its re-open
(`reopened`). -/
def State.addressToCome (s : State) (reopened : Bool) : Prop :=
  ∃ x, s.bus.transaction = some x
    ∧ (x.phase = .open ∨ x.phase = .address ∧ (x.read = false ∨ reopened = true)
        ∨ (x.phase = .send ∨ x.phase = .reopen) ∧ reopened = true)

/-- R110, log entry 15: byte `i` after the address byte in write direction can still be refused. -/
def State.byteToCome (s : State) (i : Nat) : Prop :=
  ∃ x, s.bus.transaction = some x
    ∧ (x.phase = .open ∨ x.phase = .address ∧ x.read = false ∨ x.phase = .send ∧ x.byteIndex ≤ i)

/-- The command that cuts a transaction off. -/
def CutOff.command (c : CutOff) (p : Progress) : Instr :=
  match c with
  | .lost => .arbitrationLoss p
  | .timeout => .stretchTimeout p

/-- R133, R134: the outcome of a sequence that is cut off. -/
def CutOff.outcome : CutOff → SeqOutcome
  | .lost => .lost
  | .timeout => .timeout

/-- R119, R120: the bus and the count after a transaction has been cut off. -/
def State.cutFrom (t s : State) (c : CutOff) : Prop :=
  t.bus.transaction = none ∧ t.events.count c.event.number = min 255 (s.events.count c.event.number + 1)
    ∧ match c with
      | .lost => t.bus.status = .foreign ∧ t.bus.freeAt = none
      | .timeout => t.bus.status = .owned ∧ t.bus.awaitRise = true

/-- R136: the result of a sequence. -/
def SlotState.finishedAs (steps : List SeqStep) (outLength received : Nat) (inArea : Vector Byte 32) (outcome : SeqOutcome)
    (step : Nat) (index : Option Nat) : SlotState :=
  .finished steps outLength received
    { outcome := outcome, endingStep := step, byteIndex := index, received := received, bytes := inArea.toList.take received }

/-- R178: the two bytes of a step. -/
def SeqStep.spelled : SeqStep → List Byte
  | .open target read => [0x00#8, target ++ (if read then 1#1 else 0#1)]
  | .send n check => [if check then 0x41#8 else 0x40#8, BitVec.ofNat 8 n]
  | .receive n lastNack => [if lastNack then 0x81#8 else 0x80#8, BitVec.ofNat 8 n]
  | .close => [0xC0#8, 0x00#8]

/-- R129 checks 1 and 2: the argument bytes `rest` after the step count and the out length begin with the steps `steps`,
`count` in number, the n of every SEND and RECEIVE being 1 to 32. -/
def spells (rest : List Byte) (count : Nat) (steps : List SeqStep) : Prop :=
  steps.length = count ∧ steps.flatMap SeqStep.spelled = rest.take (2 * count)
    ∧ ∀ st ∈ steps, match st with
      | .send n _ | .receive n _ => 1 ≤ n ∧ n ≤ 32
      | .open _ _ | .close => True

/-- R129 checks 4 and 5: whether a step is an OPEN or the CLOSE. -/
def SeqStep.ends : SeqStep → Bool
  | .open _ _ | .close => true
  | .send _ _ | .receive _ _ => false

/-- R129 check 4: step `i`, counted from 0, follows an OPEN in the direction `read` with no OPEN between. -/
def followsOpen (steps : List SeqStep) (i : Nat) (read : Bool) : Prop :=
  ∃ j target, j < i ∧ steps[j]? = some (.open target read)
    ∧ ∀ k other way, j < k → k < i → steps[k]? ≠ some (.open other way)

/-- R129 checks 3 to 7. -/
def SequencePasses (steps : List SeqStep) (outLength : Nat) : Prop :=
  ((∃ target read, steps.head? = some (.open target read)) ∧ steps.getLast? = some .close
    ∧ ∀ i, i + 1 < steps.length → steps[i]? ≠ some .close)
  ∧ ((∀ i n check, steps[i]? = some (.send n check) → followsOpen steps i false)
    ∧ ∀ i n lastNack, steps[i]? = some (.receive n lastNack) → followsOpen steps i true)
  ∧ (∀ j k target st, j < k → steps[j]? = some (.open target true) → steps[k]? = some st → st.ends →
      (∀ i other, j < i → i < k → steps[i]? = some other → other.ends = false) →
      ∃ n, steps[k - 1]? = some (.receive n true))
  ∧ (steps.map fun st => match st with
      | .send n _ => n
      | _ => 0).sum ≤ outLength
  ∧ (steps.map fun st => match st with
      | .receive n _ => n
      | _ => 0).sum ≤ 32

/-- R130: the reply that refuses an OPEN of a target address, if any. -/
def Layout.refusesTarget (l : Layout) (target : BitVec 7) (reply : Reply) : Prop :=
  let usable := 0x08 ≤ target.toNat ∧ target.toNat ≤ 0x77
  ¬usable ∧ reply = .badArgument
    ∨ usable ∧ reply = .targetConflict ∧ ∃ d e, l.devices.get d = some e ∧ e.target.toNat ≤ target.toNat
        ∧ target.toNat ≤ e.target.toNat + 2 ^ e.blockBits - 1

/-- R122: the fault BUS_STUCK logged now, its detail naming the line. -/
def State.stuckRecord (s : State) (line : Line) : FaultRecord :=
  { number := s.events.counter, time := s.uptime, info :=
      { kind := .busStuck, device := none, window := none, buffer := none, place := none
        detail := match line with
          | .scl => 1#8
          | .sda => 2#8 } }

/-- R76, R93: the read `r` waits for the answer to its request, or for the transaction that serves it. -/
def State.awaitsTheBus (s : State) (r : ReadRecord) : Prop :=
  (r.wait = .bus ∧ ∃ d x, .streamOpen d x ∈ s.bus.hostReads)
    ∨ (r.wait = .none ∧ r.translation.checked = false ∧ s.job = some .stream)
    ∨ (r.wait = .bus ∨ r.wait = .none) ∧
        ∃ n, r.verifyBuffer = some n ∧ (s.job = some (.verify n) ∨ .verify n ∈ s.bus.hostReads)

/-- R26, R54, R58, R85, R97, R122, R134, R167: what entry to STUCK leaves, at the bus, at every requester, and of a write that
waits for a buffer, also where the entry itself frees a VERIFY buffer. -/
def State.stuckFrom (t s : State) (line : Line) : Prop :=
  let logged := s.events.log ++ [s.stuckRecord line]
  t.bus.status = .stuck ∧ t.bus.nextCheck = some { since := s.now, period := 500 } ∧ t.bus.transaction = none
    ∧ t.bus.hostReads = [] ∧ t.events.count 8 = min 255 (s.events.count 8 + 1)
    ∧ logged <+: t.events.log ∧ (s.port.isWaiting = false → t.events.log = logged)
    ∧ (∀ n, s.job = some (.run n) ∨ s.job = some (.fill n) → t.engine.requests = n :: s.engine.requests)
    ∧ ((∀ n, s.job ≠ some (.run n) ∧ s.job ≠ some (.fill n)) → t.engine.requests = s.engine.requests)
    ∧ (∀ d p, s.job = some (.probe d) → (s.record d).status.probe = some p →
        (t.record d).status.probe = some { p with due := true })
    ∧ (s.job = some .stream → t.reads.stream = .closed)
    ∧ (∀ n, s.job = some (.verify n) ∨ .verify n ∈ s.bus.hostReads → s.bufferState n = .verify → t.bufferState n = .free)
    ∧ (∀ req r, s.port = .waiting req (.readPath r) → s.awaitsTheBus r →
        t.port = .answered req (refusedWith req.write) ∧ t.events.log = logged
          ∧ (req.write = false → t.events.count 1 = min 255 (s.events.count 1 + 1)))
    ∧ (∀ req x, s.port = .waiting req (.buffers x) → (∀ n, s.bufferState n ≠ .free ∧ s.bufferState n ≠ .clean) →
        (∃ n, (s.bufferState n).working) →
        t.port = .answered req (refusedWith req.write) ∧ t.events.log = logged
          ∧ (req.write → t.events.count 0 = min 255 (s.events.count 0 + 1)))
    ∧ (s.job = some (.recordRead false) ∨ .recordRead ∈ s.bus.hostReads → ∀ r, s.control.recordRead = some r →
        t.control.recordRead = some { r with nextAttempt := none, failed := true })
    ∧ (∀ steps outLength received retries, s.slot.state = .waiting steps outLength received retries →
        t.slot.state = .finishedAs steps outLength 0 s.slot.inArea .stuck 0 none
          ∧ t.events.count 10 = min 255 (s.events.count 10 + 1))
    ∧ (∀ steps outLength received retries current outPos abort, s.job = some .sequence →
        s.slot.state = .running steps outLength received retries current outPos abort →
        t.slot.state = .finishedAs steps outLength 0 s.slot.inArea .stuck 0 none
          ∧ t.events.count 10 = min 255 (s.events.count 10 + 1))
    ∧ ∀ n, s.bufferState n ≠ .verify → t.bufferState n = s.bufferState n ∧ (t.buffer n).image = (s.buffer n).image

/-- R170: what the entry to READING leaves. -/
def State.readingFrom (t s : State) : Prop :=
  t.control.mode = .reloading .reading ∧ t.reads.ahead = { device := 0, first := 0, bytes := [] }
    ∧ (t.reads.dropsAhead = true ↔ s.reads.stream ≠ .closed)
    ∧ (∀ n, t.bufferState n = if s.bufferState n = .clean then .free else s.bufferState n)
    ∧ t.control.recordRead = some { retries := 0, firstNack := none, nextAttempt := none, failed := false }
    ∧ .recordRead ∈ t.bus.hostReads ∧ t.layout = s.layout

/-- R6, R47, R161: the layout `l` is installed from `source`, and the count of `kind` is one higher. -/
def State.installedFrom (t s : State) (l : Layout) (source : LayoutSource) (kind : EventKind) : Prop :=
  t.layout = l ∧ t.control.source = some source ∧ t.events.mask = l.params.eventMask
    ∧ (∀ d : Index, t.record d = { status := .ready, nacks := 0 })
    ∧ t.events.count kind.number = min 255 (s.events.count kind.number + 1)

/-- R111, R168, R170: the record read ends at this step, `bytes` being the bytes of the record that no command has handed
over before: with a record that validation accepts, or with `x`. -/
def State.recordEndsAs (s : State) (bytes : List Byte) (x : Option Rejection) : Prop :=
  ∃ r, s.control.recordRead = some r
    ∧ (r.failed = true ∧ x = some .recordUnreadable
      ∨ r.failed = false ∧ s.carries (.recordRead false) ∧ (s.handed ++ bytes).length = 144
        ∧ s.agrees bytes ∧ x = validate (s.handed ++ bytes))

/-- R168, R170: the log after a rejection, with room in it. -/
def EventUnit.logWith (e : EventUnit) (x : Rejection) : List FaultRecord :=
  e.log ++ [{ number := e.counter, time := e.uptime, info :=
    { kind := .layoutRejected, detail := x.detail, device := none, window := none, buffer := none, place := none } }]

/-- R176: the reply status byte. -/
def replyCode : Reply → Byte
  | .ok => 0x01#8
  | .busy => 0x02#8
  | .wrongState => 0x03#8
  | .badArgument => 0x04#8
  | .unknown => 0x05#8
  | .heldPresent => 0x06#8
  | .targetConflict => 0x07#8
  | .notReady => 0x08#8

/-- Two bytes from `k` on of a report give a field of two bytes, the high byte first. -/
def pairAt (r : List Byte) (k : Nat) (h : Half) : Prop := r[k]? = some (h.extractLsb' 8 8) ∧ r[k + 1]? = some (h.extractLsb' 0 8)

/-- Four bytes of a report, from byte `k` on, give a time, the most significant byte first. -/
def wordAt (r : List Byte) (k : Nat) (w : Word) : Prop := ∀ i, i < 4 → r[k + i]? = some (w.extractLsb' (24 - 8 * i) 8)

/-- R177: byte `k` of a report gives a number, FFh when it is absent. -/
def numberAt (r : List Byte) (k : Nat) (n : Option Nat) : Prop :=
  r[k]? = some (match n with
    | some n => BitVec.ofNat 8 n
    | none => 0xFF#8)

/-- R177: four bytes of a report give a time, FFFFFFFFh when it is absent. -/
def timeAt (r : List Byte) (k : Nat) (t : Option Word) : Prop := wordAt r k (t.getD 0xFFFFFFFF#32)

/-- R176: the layout source code. -/
def sourceCode : LayoutSource → Nat
  | .record => 0
  | .fallback => 1

/-- R176: the buffer state code. -/
def bufferCode : BufferState → Nat
  | .free => 0
  | .gather => 1
  | .sealed => 2
  | .fill => 3
  | .commit => 4
  | .cycle => 5
  | .verify => 6
  | .clean => 7
  | .held => 8

/-- R153, R176: `r` is the status report. -/
def State.isStatusReport (s : State) (r : List Byte) : Prop :=
  r.length = 28
    ∧ numberAt r 0 (some (match s.control.mode with
      | .starting => 0
      | .running => 1
      | .reloading _ => 2
      | .flushing => 3
      | .safe => 4))
    ∧ numberAt r 1 (s.control.source.map sourceCode)
    ∧ numberAt r 2 (some (match s.bus.status with
      | .free => 0
      | .owned => 1
      | .foreign => 2
      | .clearing => 3
      | .stuck => 4))
    ∧ numberAt r 3 (some (match s.reads.stream with
      | .closed => 0
      | .opening _ => 1
      | .running _ => 2
      | .parked _ _ => 3
      | .closing _ => 4))
    ∧ (∀ d : Index, numberAt r (4 + d.val) (some (match (s.record d).status with
      | .ready => 0
      | .cycling _ _ => 1
      | .silent _ => 2)))
    ∧ (∀ n : Index, numberAt r (12 + n.val) (some (bufferCode (s.bufferState n))))
    ∧ numberAt r 20 (some s.table.queue.length) ∧ numberAt r 21 (some s.events.log.length)
    ∧ numberAt r 22 (some s.events.overflow)
    ∧ numberAt r 23 (some (match s.slot.state with
      | .empty => 0
      | .waiting _ _ _ _ => 1
      | .running _ _ _ _ _ _ _ => 2
      | .finished _ _ _ _ => 3))
    ∧ wordAt r 24 s.uptime

/-- R154, R176: `r` is the event report. -/
def EventUnit.isEventReport (e : EventUnit) (r : List Byte) : Prop :=
  r.length = 24 ∧ (∀ k : Fin 16, numberAt r k.val (some (e.count k))) ∧ pairAt r 16 e.mask
    ∧ numberAt r 18 (some e.log.length) ∧ numberAt r 19 (some e.overflow) ∧ wordAt r 20 e.uptime

/-- R177: the bytes `r` are those of a fault record: the device and the window are halves of byte 8, the buffer is the high
half of byte 9, and the place is the low 20 bits of bytes 9 to 11; Fh and FFFFFh where they are absent. -/
def FaultRecord.isSentAs (f : FaultRecord) (r : List Byte) : Prop :=
  let half := fun x : Option Index => BitVec.ofNat 4 ((x.map Fin.val).getD 15)
  let place := BitVec.ofNat 20 (f.info.place.getD 0xFFFFF)
  pairAt r 0 f.number
    ∧ numberAt r 2 (some (match f.info.kind with
      | .unmapped => 0x00
      | .readOnly => 0x01
      | .checkBytes => 0x02
      | .noBuffer => 0x03
      | .deviceSilentAccess => 0x04
      | .readNack => 0x05
      | .readRetries => 0x06
      | .checkMismatchRead => 0x07
      | .checkMismatchFill => 0x08
      | .dataRefused => 0x09
      | .cycleTimeout => 0x0A
      | .noAnswer => 0x0B
      | .commitRetries => 0x0C
      | .busStuck => 0x0D
      | .layoutRejected => 0x0E
      | .reloadAbandoned => 0x0F))
    ∧ r[3]? = some f.info.detail ∧ wordAt r 4 f.time
    ∧ r[8]? = some (half f.info.device ++ half f.info.window)
    ∧ r[9]? = some (half f.info.buffer ++ place.extractLsb' 16 4) ∧ r[10]? = some (place.extractLsb' 8 8)
    ∧ r[11]? = some (place.extractLsb' 0 8)

/-- R155, R177: `r` is the buffer report of buffer `n`. -/
def State.isBufferReport (s : State) (n : Index) (r : List Byte) : Prop :=
  let hold := (s.buffer n).hold
  let phase := hold.map (·.phase)
  let maskAt := fun (k : Nat) (m : Option Mask) => ∀ p, p < 64 → ∃ v, r[k + p / 8]? = some v
    ∧ v.getLsbD (7 - p % 8) = (m.getD 0#64).has p
  r.length = 167 ∧ numberAt r 0 (some n.val) ∧ numberAt r 1 (some (bufferCode (s.bufferState n)))
    ∧ numberAt r 2 (hold.map (·.device.val))
    ∧ numberAt r 3 ((hold.bind fun h => s.windowOf h.device h.page).map Fin.val)
    ∧ pairAt r 4 (BitVec.ofNat 16 ((hold.map (·.page)).getD 0xFFFF)) ∧ numberAt r 6 (hold.map (·.generation))
    ∧ numberAt r 7 (phase.bind fun ph => match ph with
      | .held cause => some (match cause with
        | .dataRefused => 0
        | .cycleTimeout => 1
        | .deviceSilent => 2
        | .retryExhausted => 3
        | .checkMismatch => 4)
      | _ => none)
    ∧ numberAt r 8 (phase.bind fun ph => match ph with
      | .sealed forced | .fill forced | .commit forced _ | .cycle forced _ => some (if forced then 1 else 0)
      | _ => none)
    ∧ numberAt r 9 (hold.map (·.retries)) ∧ maskAt 10 (hold.map (·.written)) ∧ maskAt 18 (hold.map (·.source))
    ∧ timeAt r 26 (hold.map (·.lastWrite))
    ∧ timeAt r 30 (phase.bind fun ph => match ph with
      | .clean lastUse => some lastUse
      | _ => none)
    ∧ timeAt r 34 (phase.bind fun ph => match ph with
      | .gather deadline => some deadline
      | _ => none)
    ∧ (let runs := phase.bind fun ph => match ph with
        | .commit _ runs | .cycle _ runs => some runs
        | _ => none
      numberAt r 38 (runs.map List.length)
        ∧ ∀ i, i < 32 → numberAt r (39 + 2 * i) (some ((((runs.getD [])[i]?).map Run.first).getD 0))
          ∧ numberAt r (40 + 2 * i) (some ((((runs.getD [])[i]?).map Run.count).getD 0)))
    ∧ ∀ p, p < 64 → r[103 + p]? = some ((s.buffer n).image.byte p)

/-- R175: the eight bytes of `r` from `k` on are the record of the device `e`. -/
def DeviceEntry.isSentAt (e : DeviceEntry) (r : List Byte) (k : Nat) : Prop :=
  numberAt r k (some e.target.toNat) ∧ numberAt r (k + 1) (some e.addressBytes) ∧ numberAt r (k + 2) (some e.blockBits)
    ∧ numberAt r (k + 3) (some e.capacityCode) ∧ numberAt r (k + 4) (some e.pageCode)
    ∧ numberAt r (k + 5) (some (match e.kind with
      | .cycled => 0
      | .immediate => 1))
    ∧ numberAt r (k + 6) (some e.cycleLimit) ∧ numberAt r (k + 7) (some 0)

/-- R175: the eight bytes of `r` from `k` on are the record of the window `w`. -/
def WindowEntry.isSentAt (w : WindowEntry) (r : List Byte) (k : Nat) : Prop :=
  pairAt r k (BitVec.ofNat 16 w.hostBase) ∧ numberAt r (k + 2) (some w.sizeCode) ∧ numberAt r (k + 3) (some w.device.val)
    ∧ pairAt r (k + 4) (BitVec.ofNat 16 w.deviceOffset)
    ∧ numberAt r (k + 6) (some ((if w.readOnly then 1 else 0) + (if w.checked then 2 else 0) + (if w.mergeFill then 4 else 0)))
    ∧ numberAt r (k + 7) (some w.gatherTime)

/-- R156, R175, R176: `r` is the layout report: the source, the counts, the parameters, and a record for each present
device and each present window, those with a lower number first. -/
def State.isLayoutReport (s : State) (r : List Byte) : Prop :=
  let p := s.layout.params
  let devices := (allIndices.filter fun d => (s.layout.devices.get d).isSome).length
  let windows := (allIndices.filter fun i => (s.layout.windows.get i).isSome).length
  r.length = 12 + 8 * (devices + windows) ∧ numberAt r 0 (s.control.source.map sourceCode)
    ∧ numberAt r 1 (some devices) ∧ numberAt r 2 (some windows)
    ∧ numberAt r 3 (some (match p.rate with
      | .kHz100 => 0
      | .kHz400 => 1
      | .kHz1000 => 2))
    ∧ numberAt r 4 (some p.poll) ∧ numberAt r 5 (some p.park) ∧ numberAt r 6 (some p.stretch)
    ∧ numberAt r 7 (some p.retries) ∧ numberAt r 8 (some p.depth) ∧ numberAt r 9 (some p.reserve)
    ∧ pairAt r 10 p.eventMask
    ∧ (∀ d e, s.layout.devices.get d = some e →
        e.isSentAt r (12 + 8 * (allIndices.filter fun c => (s.layout.devices.get c).isSome && c < d).length))
    ∧ ∀ i w, s.layout.windows.get i = some w → w.isSentAt r
        (12 + 8 * devices + 8 * (allIndices.filter fun j => (s.layout.windows.get j).isSome && j < i).length)

end Sys2Proof.Machine

open Sys2Proof Sys2Proof.Machine

/-! ### The step -/

/-- The command at the front of the queue is taken from it and runs on the rest; with no command waiting 50 ns pass on the bus
timer (R106; that they do is the model's choice, log entry 14). -/
def Obligations.StepRunsFrontCommand : Prop :=
  (∀ (c : Instr) (rest : List Instr) (s : State),
    step { s with pending := c :: rest } = exec c { s with pending := rest })
    ∧ ∀ s : State, s.pending = [] → step s = .next (s.pass 1).settle

/-- No command stops the bridge, and none touches the commands that wait (log entry 2). -/
def Obligations.EveryCommandAnswersNext : Prop :=
  ∀ (c : Instr) (s : State), ∃ t, exec c s = .next t ∧ t.pending = s.pending

/-- R6, R157, R161 to R164: the layout changes at a reset and at an installation alone, the mask there and at SET EVENT
MASK alone, the time base at a reset and at a tick alone; records leave the log at a reset and at DROP FAULT alone, which
removes at most the head, and everything else leaves the log as a first part of the log after it. Either service command may
come as a command of its own or with the edges of SCK in a tick (log entry 16), and the end of the record read with the time
that passes on the bus within one (log entry 47). -/
def Obligations.LayoutMaskTimeAndLogHaveTheirOwnCommands : Prop :=
  ∀ (c : Instr) (s t : State), exec c s = .next t → (∀ a w x y, c ≠ .reset a w x y) →
    let drops := (∃ args, c = .dropFault args) ∨ tookAtTick c s t 0x06#8
    let installs := (∃ bs, c = .startupRecordReadEnd bs ∨ c = .reloadRecordReadEnd bs)
      ∨ ∃ traffic edges n, c = .timeBaseTick traffic edges ∧ .pass n ∈ traffic ∧ s.control.recordRead ≠ none
          ∧ ∃ dropped, s.job = some (.recordRead dropped)
    (t.layout ≠ s.layout → installs)
      ∧ (t.events.mask ≠ s.events.mask → installs ∨ (∃ bs, c = .setEventMask bs) ∨ tookAtTick c s t 0x04#8)
      ∧ (t.now ≠ s.now → ∃ traffic edges, c = .timeBaseTick traffic edges)
      ∧ (¬drops → s.events.log <+: t.events.log)
      ∧ (drops → s.events.log <+: t.events.log ∨ s.events.log.tail <+: t.events.log)

/-- The consequences that a command ends with (R26, R37, R71, R80, R117, R171) touch neither the layout, the slot, the
service port, the time base, the mask, the Device Status Table nor the queue of commands. Unless they abandon a reload with
an access held by the mode, they touch neither the buffer table nor the request list and the read-ahead queue, and they
leave an access that does not wait as it stands and make of one that waits a refusal or nothing. A reload with a buffer
HELD is abandoned: the mode is RUNNING, the access that the mode held is dispatched, and RELOAD_ABANDONED is logged last,
naming the lowest-numbered HELD buffer (log entry 9). In a state that nothing disturbs they are the pass counts alone (R117):
the count of a class with no request waiting is 0. That they end the command, and their order, is log entry 6. -/
def Obligations.SettlementChangesOnlyTheseParts : Prop :=
  ∀ s : State,
    let abandons := s.control.mode.isReloading = true ∧ ∃ n, s.bufferState n = .held
    s.settle.pending = s.pending ∧ s.settle.layout = s.layout ∧ s.settle.slot = s.slot ∧ s.settle.service = s.service
      ∧ s.settle.now = s.now ∧ s.settle.events.mask = s.events.mask ∧ s.settle.engine.devices = s.engine.devices
      ∧ (¬abandons → s.settle.control = s.control)
      ∧ (¬(abandons ∧ s.heldByMode = true) →
        s.settle.table = s.table ∧ s.settle.engine = s.engine ∧ s.settle.reads.ahead = s.reads.ahead
          ∧ (s.port.isWaiting = false → s.settle.port = s.port)
          ∧ (∀ req hold, s.port = .waiting req hold →
              s.settle.port = s.port ∨ s.settle.port = .answered req (refusalAnswer req))
          ∧ (∀ p d, s.reads.stream = .parked p d →
              s.settle.reads.stream = s.reads.stream ∨ s.settle.reads.stream = .closing p)
          ∧ (s.reads.stream.isParked = false → s.settle.reads.stream = s.reads.stream))
      ∧ (∀ n, s.control.mode.isReloading → s.bufferState n = .held → (∀ m < n, s.bufferState m ≠ .held) →
          s.settle.control = { s.control with mode := .running, recordRead := none } ∧ s.settle.heldByMode = false
            ∧ (s.events.log.length < 7 → ∃ x, s.settle.events.log.getLast? = some x ∧ x.info =
                { kind := .reloadAbandoned, detail := 0#8, device := s.deviceOf n, window := none, buffer := some n
                  place := none }))
      ∧ (s.undisturbed → s.settle = { s with bus := { s.bus with
          passCommit := if s.isStuck = false ∧ s.engine.requests ≠ [] then s.bus.passCommit else 0
          passDirect := if s.slot.state.code = 1 then s.bus.passDirect else 0 } })

/-- The consequences of a command are made in full: after each command a further settlement changes nothing (log
entry 6). -/
def Obligations.EveryStepLeavesTheStateSettled : Prop :=
  ∀ s t : State, s.Settled → step s = .next t → t.Settled

/-! ### What every step keeps -/

/-- R159, R162, R163: counts and overflow at most 255, at most 8 records with consecutive numbers up to the counter. -/
def Obligations.EventUnitStaysWellKept : Prop :=
  ∀ s t : State, s.events.WellKept → step s = .next t → t.events.WellKept

/-- R31: the commit queue holds exactly the SEALED buffers, each once. -/
def Obligations.QueueStaysExact : Prop :=
  ∀ s t : State, s.QueueExact → step s = .next t → t.QueueExact

/-- R20: the generations of a page's buffers stay 0 up to their number minus one, each used once. -/
def Obligations.GenerationsStayRanked : Prop :=
  ∀ s t : State, s.GenerationsRanked → step s = .next t → t.GenerationsRanked

/-- R20, R35, R43: each page keeps at most one GATHER and one CLEAN buffer, each device at most one commit, and with the
generations ranked a page's GATHER buffer stays the newest of its dirty buffers. -/
def Obligations.PagesAndCommitsStaySingle : Prop :=
  ∀ s t : State, s.PagesSingle → s.OneCommitEach → step s = .next t →
    t.PagesSingle ∧ t.OneCommitEach ∧ (s.GenerationsRanked → s.GatherNewest → t.GatherNewest)

/-- R46: the request list keeps naming buffers in FILL or COMMIT, each once, and none whose transaction is in flight. -/
def Obligations.RequestsStayOrdered : Prop :=
  ∀ s t : State, s.OneCommitEach → s.RequestsOrdered → step s = .next t → t.RequestsOrdered

/-- R105 to R107, R120, R121, R123: the fields of the bus record stay present where the record says, the free deadline of a
successful stuck check's close among them (R106). The bus timer stays within the present step of the time base (the model's
choice, log entry 4). -/
def Obligations.BusRecordStaysWellKept : Prop :=
  ∀ s t : State, step s = .next t →
    (s.bus.WellKept → t.bus.WellKept) ∧ (s.TimerInTick → t.TimerInTick)

/-- R140, R166, R169, R173: each mode keeps what it says of the buffers and of the access. R88, R171: a read-ahead queue that a
reload has emptied stays empty while the stream that was open then is open (log entry 7). -/
def Obligations.ModesStayOrdered : Prop :=
  ∀ s t : State, step s = .next t →
    (s.ModeOrdered → t.ModeOrdered) ∧ (s.reads.EmptiedKept → t.reads.EmptiedKept)

/-- R13 to R16, R168: the layout in force stays one that validation accepts. -/
def Obligations.LayoutStaysValid : Prop :=
  ∀ s t : State, s.LayoutKept → step s = .next t → t.LayoutKept

/-- The state after reset meets every invariant above, that of the bus timer being the model's own (log entry 4). -/
def Obligations.ResetMeetsTheInvariants : Prop :=
  State.reset.events.WellKept ∧ State.reset.QueueExact ∧ State.reset.GenerationsRanked ∧ State.reset.GatherNewest
    ∧ State.reset.PagesSingle ∧ State.reset.OneCommitEach ∧ State.reset.RequestsOrdered ∧ State.reset.bus.WellKept
    ∧ State.reset.TimerInTick ∧ State.reset.ModeOrdered ∧ State.reset.reads.EmptiedKept ∧ State.reset.LayoutKept
    ∧ State.reset.Settled

/-- R35, R142: in RUNNING, once a write has been answered without HERR, a read of the same bytes taken after it is
answered at once with the values written, whatever state the write left its buffer in. -/
def Obligations.AcceptedWritesAreReadBack : Prop :=
  ∀ (s t u : State) (half : BitVec 19) (laneL laneU : Bool) (hd other : BitVec 16),
    s.LayoutKept → s.GenerationsRanked → s.GatherNewest → s.PagesSingle → s.control.mode = .running → s.port = .idle →
    laneL || laneU → exec (.hostAccessTaken true half laneL laneU hd) s = .next t → t.hrdy → t.herr = false →
    exec .accessEnd t = .next u →
    ∃ v, exec (.hostAccessTaken false half laneL laneU other) u = .next v ∧ v.hrdy ∧ v.herr = false
      ∧ v.hdOut = some ((if laneU then highByte hd else 0#8) ++ (if laneL then lowByte hd else 0#8))

/-! ### RESET and the tick -/

/-- R6, R18, R42, R68, R72, R89, R106, R124, R125, R137, R146, R165, R166: what a reset leaves in every block;
the commands that wait are the model's own, and stay (log entry 3). -/
def Obligations.ResetReturnsEveryBlock : Prop :=
  ∀ (a : BitVec 3) (w scl sda : Bool) (s : State), ∃ t, exec (.reset a w scl sda) s = .next t
    ∧ t.pending = s.pending ∧ t.port = .idle
    ∧ (∀ i : Index, t.layout.devices.get i = none ∧ t.layout.windows.get i = none)
    ∧ t.layout.params = { rate := .kHz100, poll := 5, park := 10, stretch := 100, retries := 3, depth := 4, reserve := 1
                          eventMask := 0xFFFF#16 }
    ∧ (∀ n : Index, t.bufferState n = .free ∧ ∀ p, p < 64 → (t.buffer n).image.byte p = 0xFF#8)
    ∧ t.table.queue = [] ∧ t.table.flushWatch = false
    ∧ (∀ d : Index, t.record d = { status := .ready, nacks := 0 }) ∧ t.engine.requests = []
    ∧ t.reads = { stream := .closed, ahead := { device := 0, first := 0, bytes := [] }, dropsAhead := false }
    ∧ t.bus.status = .foreign ∧ t.bus.timer = 0#32 ∧ t.bus.transaction = none ∧ t.bus.wire = none ∧ t.bus.freeAt = none
    ∧ t.bus.nextCheck = none ∧ t.bus.passCommit = 0 ∧ t.bus.passDirect = 0 ∧ t.bus.lastGranted = .direct
    ∧ (t.bus.lowStart.isSome ↔ scl = false) ∧ (t.bus.heldData.isSome ↔ scl = true ∧ sda = false)
    ∧ t.bus.hostReads = [.recordRead]
    ∧ t.slot.state = .empty ∧ (∀ i : Fin 32, t.slot.outArea.get i = 0#8 ∧ t.slot.inArea.get i = 0#8)
    ∧ t.service.frame = .idle
    ∧ t.events.uptime = 0#32 ∧ t.events.fraction = 0 ∧ (∀ k, t.events.count k = 0) ∧ t.events.mask = 0xFFFF#16
    ∧ t.irqAsserted = false ∧ t.events.log = [] ∧ t.events.counter = 0#16 ∧ t.events.overflow = 0
    ∧ t.control.mode = .starting ∧ t.control.source = none ∧ t.control.bootTarget = 0b1010#4 ++ a
    ∧ t.control.bootBytes = (if w then 2 else 1)
    ∧ t.control.recordRead = some { retries := 0, firstNack := none, nextAttempt := none, failed := false }

/-- R157: the fraction rises by one, or returns to 0 with the uptime one higher, modulo 2^32; the bus timer comes to
stand where the step of 100 µs begins (log entry 4), and with nothing else brought nothing else changes. R51: a probe
falls due at its time, once, and nothing else changes. R146, R147, R150: a rising edge of SCK samples SDI into the bits
of the current byte, the eighth completes a byte that picks the command by its code or is one of its arguments, the
last byte takes the command, an unknown code too, as the command's own row does, and after it an edge moves the port to
the next byte. R104, R109 to R111, R131: each open sent, byte sent and byte received moves the transaction in progress
on, its requester being handed the byte, the close following the last byte of a random read, and none moves a
transaction that is not on the bus. R78, R111, R135: the bridge acknowledges each byte it receives but the last, that
of a RECEIVE step NACKed by its last-NACK flag or a pending abort. Time passes on the bus timer within the tick, and
another party moves SDA while the bridge holds SCL low. That the tick brings the edges, the bytes, that time and those
moves is the model's choice (log entries 15, 16, 18 and 47). -/
def Obligations.TicksAdvanceAndProbesFallDue : Prop :=
  (∀ (s : State) (traffic : List BusEvent) (edges : List SckEdge),
    let uptime := if s.events.fraction = 9 then s.events.uptime + 1#32 else s.events.uptime
    let fraction := if s.events.fraction = 9 then 0 else s.events.fraction + 1
    let timer := BitVec.ofNat 32 (2000 * (10 * uptime.toNat + fraction.val))
    exec (.timeBaseTick [] []) s = .next ({ s with
      events := { s.events with uptime := uptime, fraction := fraction }, bus := { s.bus with timer := timer } }).settle
    ∧ ∃ t, exec (.timeBaseTick traffic edges) s = .next t ∧ t.now = { ms := uptime, frac := fraction } ∧ t.bus.timer = timer)
  ∧ (∀ (s : State) (d : Index) (next : Deadline) (k : Nat) (status : ProbeTimer → DeviceStatus),
    (status = DeviceStatus.silent ∨ ∃ start, status = DeviceStatus.cycling start) →
    s.record d = { status := status { next := next, due := false }, nacks := k } →
    next.period ≤ next.since.elapsed s.now → s.job ≠ some (.probe d) →
    exec (.probeDue d) s = .next ({ s with engine := { s.engine with
      devices := s.engine.devices.set d.val { status := status { next := next, due := true }, nacks := k } d.isLt } }).settle)
  ∧ (∀ (s : State) (sdi : Bool) (rest : List SckEdge),
    let moved := fun (e : SckEdge) (p : ServicePort) =>
      exec (.timeBaseTick [] (e :: rest)) s = exec (.timeBaseTick [] rest) { s with service := p }
    let sampled := fun f : Frame => moved (.rise sdi) { frame := f, scs := s.service.scs, sck := true }
    let takenAs := fun i : Instr => ∃ t, exec i s = .next t
      ∧ exec (.timeBaseTick [] (.rise sdi :: rest)) s = exec (.timeBaseTick [] rest) t
    moved .fall { s.service with sck := false } ∧ (s.service.sck = true → moved (.rise sdi) s.service)
    ∧ (s.service.sck = false →
      (s.service.scs = true ∨ s.service.frame = .idle → sampled s.service.frame)
      ∧ (s.service.scs = false →
        (∀ bits, s.service.frame = .command bits →
          (bits.length < 7 → sampled (.command (bits ++ [sdi])))
          ∧ ∀ code, bits ++ [sdi] = bitsOf code →
            (0 < expectedLength code [] → sampled (.arguments code [] (expectedLength code []) []))
            ∧ ∀ i, serviceInstr code [] = some i ∨ serviceInstr code [] = none ∧ i = .unknownCommand code →
              expectedLength code [] = 0 → takenAs i)
        ∧ (∀ code args expected bits, s.service.frame = .arguments code args expected bits →
          (bits.length < 7 → sampled (.arguments code args expected (bits ++ [sdi])))
          ∧ ∀ v, bits ++ [sdi] = bitsOf v →
            ((args ++ [v]).length < expectedLength code (args ++ [v]) →
              sampled (.arguments code (args ++ [v]) (expectedLength code (args ++ [v])) []))
            ∧ ∀ i, serviceInstr code [v] = some i → 0 < expectedLength code [] →
              expectedLength code (args ++ [v]) ≤ (args ++ [v]).length → takenAs i)
        ∧ ∀ code args expected bits reply response shifted, bits < 8 →
          s.service.frame = .answering code args expected bits reply response shifted →
          ∃ bits' shifted', sampled (.answering code args expected bits' reply response shifted')
            ∧ bits' < 8 ∧ 8 * shifted' + bits' = 8 * shifted + bits + 1)))
  ∧ (∀ (s : State) (rest : List BusEvent) (edges : List SckEdge),
    let moved := fun (e : BusEvent) (t : State) =>
      exec (.timeBaseTick (e :: rest) edges) s = exec (.timeBaseTick rest edges) t
    (∀ n, moved (.pass n) (s.pass n))
    ∧ ∀ level, (s.drives .scl = false → moved (.sda level) s)
      ∧ (s.drives .scl = true → moved (.sda level) (s.withBus { s.bus with
          sda := level, idleHigh := if level then s.bus.idleHigh else none })))
  ∧ (∀ (s : State) (b : BusByte) (rest : List BusEvent) (edges : List SckEdge),
    let moved := fun t : State => exec (.timeBaseTick (.byte b :: rest) edges) s = exec (.timeBaseTick rest edges) t
    ((∀ j, ¬s.carries j) → moved s)
    ∧ ∀ x, s.bus.transaction = some x → s.carries x.job →
      (b = .opened → x.phase = .open ∨ x.phase = .reopen →
        moved (s.withTransaction { x with phase := .address, byteIndex := 0 }))
      ∧ (b = .sent → x.phase = .address → x.read = false → x.toSend ≠ [] →
        (∀ n h, x.job = .run n ∨ x.job = .fill n ∨ x.job = .verify n → (s.buffer n).hold = some h →
          moved ((s.acked h.device).withTransaction { x with phase := .send }))
        ∧ (∀ dropped, x.job = .recordRead dropped → moved (s.withTransaction { x with phase := .send }))
        ∧ ∀ p, x.job = .stream → s.reads.stream = .opening p →
          moved ((s.acked p.device).withTransaction { x with phase := .send }))
      ∧ (b = .sent → x.phase = .address → x.read = true →
        (∀ n h, x.job = .fill n ∨ x.job = .verify n → (s.buffer n).hold = some h →
          moved ((s.acked h.device).withTransaction { x with phase := .receive }))
        ∧ ∀ dropped, x.job = .recordRead dropped → moved (s.withTransaction { x with phase := .receive }))
      ∧ (b = .sent → x.phase = .send → ∀ v left, x.toSend = v :: left →
        (∀ n, x.job = .run n → moved (s.withTransaction { x with
          phase := if left = [] then .close else .send, byteIndex := x.byteIndex + 1, toSend := left
          remaining := x.remaining.map fun k => min k left.length }))
        ∧ ((∃ n, x.job = .fill n ∨ x.job = .verify n) ∨ (∃ dropped, x.job = .recordRead dropped) ∨ x.job = .stream →
          moved (s.withTransaction { x with
            phase := if left = [] then .reopen else .send, read := if left = [] then true else x.read
            byteIndex := x.byteIndex + 1, toSend := left }))
        ∧ (x.job = .sequence → left ≠ [] →
          moved (s.withTransaction { x with byteIndex := x.byteIndex + 1, toSend := left })))
      ∧ ∀ v, b = .received v → x.phase = .receive → s.agrees [v] →
        let y := { x with phase := if x.remaining = some 1 then .close else .receive, byteIndex := x.byteIndex + 1
                          received := x.received ++ [v], remaining := x.remaining.map (· - 1) }
        (∀ k, x.remaining = some k → 0 < k →
          ((∃ n, x.job = .fill n) ∨ (∃ dropped, x.job = .recordRead dropped) → moved (s.withTransaction y))
          ∧ ∀ n, x.job = .verify n → ∃ im : Image,
            let placed : State := { s with table := s.tableWith n { s.buffer n with image := im } s.table.queue }
            moved (placed.withTransaction y)
              ∧ ∀ p, p < 64 → im.byte p = if p = x.received.length then v else (s.buffer n).image.byte p)
        ∧ ∀ steps outLength received retries current outPos abort n last, x.job = .sequence →
          s.slot.state = .running steps outLength received retries current outPos abort →
          steps[current - 1]? = some (.receive n last) → x.received.length + 1 < n →
          ∃ area : Vector Byte 32,
            let slot : Slot := { s.slot with
              state := .running steps outLength (received + 1) retries current outPos abort, inArea := area }
            moved ({ s with slot := slot }.withTransaction y)
              ∧ ∀ i : Fin 32, area.get i = if i.val = received then v else s.slot.inArea.get i)
  ∧ ∀ (s : State) (x : Transaction), s.bus.transaction = some x →
    (∀ k, x.remaining = some k →
      (∃ n, x.job = .fill n ∨ x.job = .verify n) ∨ (∃ dropped, x.job = .recordRead dropped) →
      (s.acknowledges = true ↔ k ≠ 1))
    ∧ (∀ p, x.job = .stream → s.reads.stream = .running p → (s.acknowledges = true ↔ p.next ≠ p.last))
    ∧ (∀ p, x.job = .stream → s.reads.stream = .closing p → s.acknowledges = false)
    ∧ ∀ steps outLength received retries current outPos abort n last, x.job = .sequence →
      s.slot.state = .running steps outLength received retries current outPos abort →
      steps[current - 1]? = some (.receive n last) →
      (s.acknowledges = true ↔ ¬((last = true ∨ abort = true) ∧ x.received.length + 1 = n))

/-! ### The Host Memory Port -/

/-- R139, R140: by the mode, an access taken is refused with its event and no fault, waits on the mode, or with no lane
selected is answered at once; nothing else changes. One with hold MODE is acted on, at the mode change that ends it, as
the same access taken then would be. -/
def Obligations.AccessesAreTakenByMode : Prop :=
  ∀ (s : State) (write : Bool) (half : BitVec 19) (laneL laneU : Bool) (hd : BitVec 16), s.port = .idle →
    (s.control.mode = .flushing ∨ s.control.mode = .safe →
      exec (.hostAccessTaken write half laneL laneU hd) s = .next ({ s with
        port := .answered (latchedRequest write half laneL laneU hd) (refusedWith write)
        events := s.events.arrive (refusalEvent write) }).settle)
    ∧ (s.control.mode = .starting ∨ s.control.mode.isReloading → laneL || laneU →
      exec (.hostAccessTaken write half laneL laneU hd) s = .next ({ s with
        port := .waiting (latchedRequest write half laneL laneU hd) .mode }).settle)
    ∧ (s.control.mode ≠ .flushing → s.control.mode ≠ .safe → laneL = false → laneU = false →
      exec (.hostAccessTaken write half laneL laneU hd) s = .next ({ s with
        port := .answered (latchedRequest write half laneL laneU hd)
          { herr := false, hd := if write then none else some 0#16 } }).settle)
    ∧ ∀ u : State, u.port = .waiting (latchedRequest write half laneL laneU hd) .mode → laneL || laneU →
      u.control.mode = .running ∨ u.control.mode = .flushing ∨ u.control.mode = .safe →
      (∃ t, exec .modeHoldEnd u = .next t)
        ∧ exec .modeHoldEnd u = exec (.hostAccessTaken write half laneL laneU hd) { u with port := .idle }

/-- R21, R26, R141, R144: an access refused on classification, and a write to a SILENT device, counts its event, logs
the fault of its class and answers HERR, and touches nothing else. R9, R11: an access is UNMAPPED exactly where no
window covers its first byte; else the lowest-numbered window that does classifies it: READ_ONLY exactly as a write of
a read-only window, CHECK_BYTES exactly as any other write of a checked window that touches position P − 2 or P − 1
(R10), naming the first such position, and MAPPED otherwise. R4, R7, R8, R12: the translation record of a MAPPED
access. -/
def Obligations.ClassesFollowTheWindowsAndRefuseAccesses : Prop :=
  (∀ (s : State) (write : Bool) (half : BitVec 19) (laneL laneU : Bool) (hd : BitVec 16) (f : FaultInfo),
    let req := latchedRequest write half laneL laneU hd
    s.port = .idle → s.control.mode = .running → laneL || laneU →
    (s.layout.classify req = .unmapped ∧
        f = { kind := .unmapped, detail := req.accessCode, device := none, window := none, buffer := none
              place := some req.firstAddress }
      ∨ (∃ i w, s.layout.classify req = .readOnly i ∧ s.layout.windows.get i = some w ∧
        f = { kind := .readOnly, detail := req.accessCode, device := some w.device, window := some i, buffer := none
              place := some req.firstAddress })
      ∨ (∃ i w p, s.layout.classify req = .checkBytes i p ∧ s.layout.windows.get i = some w ∧
        f = { kind := .checkBytes, detail := BitVec.ofNat 8 p, device := some w.device, window := some i, buffer := none
              place := some req.firstAddress })
      ∨ ∃ t, s.layout.classify req = .mapped t ∧ write ∧ s.isSilent t.device ∧
        f = { kind := .deviceSilentAccess, detail := BitVec.ofNat 8 (s.record t.device).nacks, device := some t.device
              window := some t.window, buffer := none, place := some req.firstAddress }) →
    exec (.hostAccessTaken write half laneL laneU hd) s = .next ({ s with
      port := .answered req (refusedWith write)
      events := (s.events.arrive (refusalEvent write)).append f }).settle)
  ∧ ∀ (l : Layout) (req : HostRequest),
    req.touched = (if req.laneL then [2 * req.half.toNat] else []) ++ (if req.laneU then [2 * req.half.toNat + 1] else [])
    ∧ (l.classify req = .unmapped ↔ ∀ i w, l.windows.get i = some w → w.covers req.firstAddress = false)
    ∧ ∀ (i : Index) (w : WindowEntry) (e : DeviceEntry), req.laneL || req.laneU → l.windows.get i = some w →
      w.covers req.firstAddress → (∀ j v, j < i → l.windows.get j = some v → v.covers req.firstAddress = false) →
      l.devices.get w.device = some e →
      let size := 8 * 2 ^ e.pageCode
      let block := 256 ^ e.addressBytes
      let offset := fun a : Nat => a - w.hostBase * 256 + w.deviceOffset * 256
      let x := offset req.firstAddress
      let checkByte := fun p : Nat => (p + 2 = size ∨ p + 1 = size) ∧ ∃ a ∈ req.touched, p = offset a % size
      (l.classify req = .readOnly i ↔ req.write = true ∧ w.readOnly = true)
      ∧ (∀ p, l.classify req = .checkBytes i p ↔ req.write = true ∧ w.readOnly = false ∧ w.checked = true ∧ checkByte p
          ∧ ∀ q, checkByte q → p ≤ q)
      ∧ (¬(req.write = true ∧ (w.readOnly = true ∨ w.checked = true ∧ ∃ p, checkByte p)) →
          l.classify req = .mapped
            { window := i, device := w.device, kind := e.kind, pageSize := size, page := x / size
              pageStart := x / size * size, positions := req.touched.map fun a => offset a % size
              target := e.target + BitVec.ofNat 7 (x / block), addressBytes := memoryAddress e x
              lastOffset := min ((x / block + 1) * block - 1) (256 * 2 ^ e.capacityCode - 1), checked := w.checked
              mergeFill := w.mergeFill && !w.checked, gatherTime := w.gatherTime })

/-- R87, R143, R145: HSEL# high ends an answered access, and drops one that waits: it counts no event and logs no
fault, and of a read its stream open request is withdrawn with it. -/
def Obligations.AccessEndAndWithdrawalFreeThePort : Prop :=
  ∀ (s : State) (req : HostRequest),
    (∀ a, s.port = .answered req a → exec .accessEnd s = .next ({ s with port := .idle }).settle)
    ∧ (∀ t, s.port = .waiting req (.buffers t) → exec .withdrawal s = .next ({ s with port := .idle }).settle)
    ∧ (s.port = .waiting req .mode → exec .withdrawal s = .next ({ s with port := .idle }).settle)
    ∧ (∀ r, s.port = .waiting req (.readPath r) → exec .withdrawal s = .next ({ s with
        port := .idle
        bus := { s.bus with hostReads := s.bus.hostReads.filter fun q => !q.isStreamOpen } }).settle)

/-! ### Writes and reads at the buffers -/

/-- R21, R29, R30, R142: a write that finds its page in GATHER merges there and is accepted at once; masks, last-write time
and deadline are as R21 gives, and nothing else changes while the page is incomplete and the gather time not 0. With the page
complete, or the gather time 0, its buffer is sealed at acceptance: it stands at the tail of the queue while its device is not
READY, and is otherwise SEALED or taken to FILL or COMMIT by the selection. -/
def Obligations.WriteMergesIntoItsGatherBuffer : Prop :=
  ∀ (s : State) (half : BitVec 19) (laneL laneU : Bool) (hd : BitVec 16) (t : Translation) (n : Index) (h : PageHold)
    (deadline : Word),
    let req := latchedRequest true half laneL laneU hd
    s.port = .idle → s.control.mode = .running → laneL || laneU → s.layout.classify req = .mapped t →
    s.isSilent t.device = false → s.PagesSingle → (s.buffer n).hold = some h → h.phase = .gather deadline →
    h.device = t.device → h.page = t.page →
    let accepted : Access := .answered req { herr := false, hd := none }
    let merged := mergedInto s (s.buffer n) h t req.data
    let complete := pageComplete t.checked t.pageSize (h.written ||| Mask.of t.positions)
    (t.gatherTime ≠ 0 → complete = false →
      exec (.hostAccessTaken true half laneL laneU hd) s = .next ({ s with
        port := accepted, table := s.tableWith n merged s.table.queue }).settle)
    ∧ (t.gatherTime = 0 ∨ complete = true →
      ((s.record h.device).status.isReady = false → s.notQueued n →
        exec (.hostAccessTaken true half laneL laneU hd) s = .next ({ s with
          port := accepted, table := s.tableWith n merged.asSealed (s.table.queue ++ [n]) }).settle)
      ∧ ∃ u, exec (.hostAccessTaken true half laneL laneU hd) s = .next u ∧ u.port = accepted ∧ u.leftGather n
        ∧ ∀ m, m ≠ n → s.bufferState m ≠ .sealed → u.buffer m = s.buffer m)

/-- R22, R23, R25, R27, R29, R142: a write whose page is in no GATHER buffer, its device not SILENT, at its taking edge or at
the end of its wait. With no CLEAN buffer of the page it opens the lowest-numbered FREE buffer: the page being incomplete,
the gather time not 0 and the reserve not undershot nothing is sealed, and nothing else changes. With the page complete, or
the gather time 0, that buffer is sealed at acceptance. With the reserve undershot the other GATHER buffer of the oldest last
write is sealed, if there is one. Both stand at the tail of the queue while their devices are not READY. The CLEAN buffer of a page
that no other buffer holds converts in place, every position written, and is sealed at once: it stands in the queue while
its device is not READY, and with the queue empty and its device READY it goes to COMMIT. A CLEAN buffer beside others of
its page is freed first, and with no buffer FREE the CLEAN one of the oldest last use is evicted. With no buffer FREE or
CLEAN the write displaces the GATHER buffer of the oldest last write, if any, and waits. -/
def Obligations.WriteOpensTheLowestFreeBuffer : Prop :=
  ∀ (s : State) (half : BitVec 19) (laneL laneU : Bool) (hd : BitVec 16) (t : Translation),
    let req := latchedRequest true half laneL laneU hd
    let accepted : Access := .answered req { herr := false, hd := none }
    s.isSilent t.device = false → (∀ m, s.ofPage t.device t.page m → s.bufferState m ≠ .gather) →
    (∀ n, s.bufferState n = .free → (∀ m < n, s.bufferState m ≠ .free) →
      (∀ m, s.ofPage t.device t.page m → s.bufferState m ≠ .clean) →
      let complete := pageComplete t.checked t.pageSize (Mask.of t.positions)
      ∃ g, s.isNextGeneration t.device t.page g ∧
        let b : Buffer :=
          { image := Image.merge (Vector.replicate 64 0xFF#8) t.positions req.data
            hold := some { device := t.device, page := t.page, generation := g, written := Mask.of t.positions
                           source := Mask.of t.positions, lastWrite := s.uptime, retries := 0
                           phase := .gather (s.uptime + BitVec.ofNat 32 t.gatherTime) } }
        let opened : State := { s with port := accepted, table := s.tableWith n b s.table.queue }
        (t.gatherTime ≠ 0 → complete = false →
          s.layout.params.reserve < s.spareBuffers ∨ (∀ m, s.bufferState m ≠ .gather) →
          s.writeGives half laneL laneU hd t opened)
        ∧ (t.gatherTime = 0 ∨ complete = true → s.layout.params.reserve < s.spareBuffers →
          (s.record t.device).status.isReady = false → s.notQueued n →
          s.writeGives half laneL laneU hd t { opened with
            table := s.tableWith n b.asSealed (s.table.queue ++ [n]) })
        ∧ (t.gatherTime ≠ 0 → complete = false → s.spareBuffers ≤ s.layout.params.reserve →
          ∀ o e deadline, (s.buffer o).hold = some e → e.phase = .gather deadline →
          (∀ m, s.bufferState m = .gather → s.writeAge m < s.writeAge o ∨ s.writeAge m = s.writeAge o ∧ o ≤ m) →
          (s.record e.device).status.isReady = false → s.notQueued o →
          s.writeGives half laneL laneU hd t { opened with
            table := opened.tableWith o (s.buffer o).asSealed (s.table.queue ++ [o]) }))
    ∧ (∀ c h lastUse, (s.buffer c).hold = some h → h.phase = .clean lastUse → h.device = t.device → h.page = t.page →
      (∀ m, m ≠ c → ¬s.ofPage t.device t.page m) → t.pageSize = s.pageSizeOf h → t.pageSize ≤ 64 →
      s.layout.params.reserve < s.spareBuffers →
      let image := (s.buffer c).image.merge t.positions req.data
      let converted := fun (source : Mask) (ph : Phase) => some
        { h with written := Mask.span 0 t.pageSize ||| Mask.of t.positions, source := source, lastWrite := s.uptime
                 retries := 0, phase := ph }
      let source := h.source ||| Mask.of t.positions
      ((s.record h.device).status.isReady = false → s.notQueued c →
        s.writeGives half laneL laneU hd t { s with
          port := accepted
          table := s.tableWith c { image := image, hold := converted source (.sealed false) }
            (s.table.queue ++ [c]) })
      ∧ (s.deviceAdmits h.device → s.table.queue = [] → (∃ mergeFill, s.pageAttributes h.device h.page true mergeFill) →
        s.writeGives half laneL laneU hd t { s with
          port := accepted, engine := { s.engine with requests := s.engine.requests ++ [c] }
          table := s.tableWith c
            { image := image.placeWord t.pageSize
              hold := converted (source ||| Mask.of [t.pageSize - 2, t.pageSize - 1])
                (.commit false [{ first := 0, count := t.pageSize }]) } [] }))
    ∧ (∀ c h lastUse, (s.buffer c).hold = some h → h.phase = .clean lastUse → s.PagesSingle →
      (h.device = t.device ∧ h.page = t.page ∧ (∃ m, m ≠ c ∧ s.ofPage t.device t.page m)
        ∨ (∀ m, s.bufferState m ≠ .free) ∧ (∀ m, s.ofPage t.device t.page m → s.bufferState m ≠ .clean)
          ∧ ∀ m g u, (s.buffer m).hold = some g → g.phase = .clean u →
              (s.uptime - u).toNat < (s.uptime - lastUse).toNat
                ∨ (s.uptime - u).toNat = (s.uptime - lastUse).toNat ∧ c ≤ m) →
      (s.port = .idle → s.control.mode = .running → laneL || laneU → s.layout.classify req = .mapped t →
        exec (.hostAccessTaken true half laneL laneU hd) s
          = exec (.hostAccessTaken true half laneL laneU hd) (s.withFreed c h))
      ∧ (s.port = .waiting req (.buffers t) → exec .waitingWriteRetry s = exec .waitingWriteRetry (s.withFreed c h)))
    ∧ ((∀ m, s.bufferState m ≠ .free ∧ s.bufferState m ≠ .clean) → s.bus.status ≠ .stuck → s.port = .idle →
      s.control.mode = .running → laneL || laneU → s.layout.classify req = .mapped t →
      ((∀ m, s.bufferState m ≠ .gather) → (∃ m, (s.bufferState m).working) →
        exec (.hostAccessTaken true half laneL laneU hd) s = .next ({ s with port := .waiting req (.buffers t) }).settle)
      ∧ ∀ g h deadline, (s.buffer g).hold = some h → h.phase = .gather deadline →
        (∀ m, s.bufferState m = .gather → s.writeAge m < s.writeAge g ∨ s.writeAge m = s.writeAge g ∧ g ≤ m) →
        (∃ u, exec (.hostAccessTaken true half laneL laneU hd) s = .next u ∧ u.port = .waiting req (.buffers t)
          ∧ u.leftGather g
          ∧ ∀ m, m ≠ g → s.bufferState m ≠ .sealed → u.buffer m = s.buffer m)
        ∧ ((s.record h.device).status.isReady = false → s.notQueued g →
          exec (.hostAccessTaken true half laneL laneU hd) s = .next ({ s with
            port := .waiting req (.buffers t)
            table := s.tableWith g { s.buffer g with hold := some { h with phase := .sealed false } }
              (s.table.queue ++ [g]) }).settle))

/-- R24, R35, R69, R73, R139, R143: a read whose bytes the bridge holds is answered with them at the taking edge, and nothing
else changes than what it takes. Dirty buffers supply a byte first. A byte taken from the CLEAN buffer of the page sets its
last-use time. A byte of an unchecked window that no buffer holds comes from the read-ahead queue, which loses its entry and
every entry before it. -/
def Obligations.ReadsAreForwarded : Prop :=
  ∀ (s : State) (half : BitVec 19) (laneL laneU : Bool) (hd : BitVec 16) (t : Translation),
    let req := latchedRequest false half laneL laneU hd
    s.port = .idle → s.control.mode = .running → laneL || laneU → s.layout.classify req = .mapped t →
    s.reads.stream.isParked = false →
    let answered := fun value : Nat → Byte => Access.answered req { herr := false, hd := some (req.onLanes (t.positions.map value)) }
    (∀ owner : Nat → Index, (∀ pos ∈ t.positions, s.supplies t.device t.page pos (owner pos)) →
      exec (.hostAccessTaken false half laneL laneU hd) s = .next ({ s with
        port := answered fun pos => (s.buffer (owner pos)).image.byte pos }).settle)
    ∧ (∀ (owner : Nat → Index) (c : Index) (h : PageHold) (lastUse : Word), s.PagesSingle →
      (s.buffer c).hold = some h → h.phase = .clean lastUse → h.device = t.device → h.page = t.page →
      let fromClean := fun pos => owner pos = c ∧ h.source.has pos ∧ ∀ m g, (s.buffer m).hold = some g →
        g.device = t.device → g.page = t.page → (s.bufferState m).dirty → g.source.has pos = false
      (∀ pos ∈ t.positions, s.supplies t.device t.page pos (owner pos) ∨ fromClean pos) →
      (∃ pos ∈ t.positions, fromClean pos) →
      exec (.hostAccessTaken false half laneL laneU hd) s = .next ({ s with
        port := answered fun pos => (s.buffer (owner pos)).image.byte pos
        table := s.tableWith c { s.buffer c with hold := some { h with phase := .clean s.uptime } } s.table.queue }).settle)
    ∧ ∀ (owner : Nat → Option Index) (last : Nat), t.checked = false → last ∈ t.positions →
      let queue := s.reads.ahead
      let entry := fun pos => t.pageStart + pos - queue.first
      (∀ pos ∈ t.positions, match owner pos with
        | some n => s.supplies t.device t.page pos n
        | none => pos ≤ last ∧ s.heldNowhere t.device t.page pos ∧ queue.device = t.device
            ∧ queue.first ≤ t.pageStart + pos ∧ t.pageStart + pos < queue.first + queue.bytes.length) →
      owner last = none →
      let left := queue.bytes.drop (entry last + 1)
      exec (.hostAccessTaken false half laneL laneU hd) s = .next ({ s with
        port := answered fun pos => match owner pos with
          | some n => (s.buffer n).image.byte pos
          | none => queue.bytes.getD (entry pos) 0#8
        reads := { s.reads with ahead := if left = [] then { device := 0, first := 0, bytes := [] }
          else { device := t.device, first := t.pageStart + last + 1, bytes := left } } }).settle

/-- R70, R76: a byte of an unchecked window that no buffer and no read-ahead entry holds, of a READY device, with the
stream CLOSED and the bus not STUCK, asks for a stream at its place; the read waits for the bus. At the taking edge of a
read, and at the end of its wait for the device. -/
def Obligations.ReadsAskForAStream : Prop :=
  ∀ (s : State) (half : BitVec 19) (laneL laneU : Bool) (hd : BitVec 16) (r : ReadRecord) (pos : Nat) (rest : List Nat),
    let req := latchedRequest false half laneL laneU hd
    let t := r.translation
    t.checked = false → t.positions.drop r.values.length = pos :: rest → s.heldNowhere t.device t.page pos →
    s.reads.ahead.holds t.device (t.pageStart + pos) = false → (s.record t.device).status = .ready →
    s.bus.status ≠ .stuck → s.reads.stream = .closed →
    let after : State := { s with
      port := .waiting req (.readPath { r with wait := .bus })
      bus := { s.bus with hostReads := s.bus.hostReads ++ [.streamOpen t.device (t.pageStart + pos)] } }
    (s.port = .idle → s.control.mode = .running → laneL || laneU → s.layout.classify req = .mapped t →
        r.values = [] → r.retries = 0 → r.verifyBuffer = none →
        exec (.hostAccessTaken false half laneL laneU hd) s = .next after.settle)
      ∧ (s.port = .waiting req (.readPath r) → r.wait = .device →
        exec .readDeviceWaitEnd s = .next after.settle)

/-- R37, R93: a read of a checked window, its byte held nowhere and its device READY, takes the lowest-numbered FREE
buffer into VERIFY and asks for the read of its page; the reserve not being undershot nothing is sealed. At the taking
edge of a read, and at the end of its wait for a buffer. -/
def Obligations.CheckedReadsTakeAVerifyBuffer : Prop :=
  ∀ (s : State) (half : BitVec 19) (laneL laneU : Bool) (hd : BitVec 16) (r : ReadRecord) (pos : Nat) (rest : List Nat)
    (n : Index),
    let req := latchedRequest false half laneL laneU hd
    let t := r.translation
    t.checked = true → r.verifyBuffer = none → t.positions.drop r.values.length = pos :: rest →
    s.heldNowhere t.device t.page pos → (s.record t.device).status = .ready → s.bus.status ≠ .stuck →
    s.bufferState n = .free → (∀ m < n, s.bufferState m ≠ .free) →
    s.layout.params.reserve < (allIndices.filter fun m => s.bufferState m == .free || s.bufferState m == .clean).length →
    ∃ g, s.isNextGeneration t.device t.page g ∧
      let b : Buffer :=
        { image := Vector.replicate 64 0xFF#8
          hold := some { device := t.device, page := t.page, generation := g, written := 0#64, source := 0#64
                         lastWrite := s.uptime, retries := 0, phase := .verify (req.firstAddress + r.values.length) } }
      let after : State := { s with
        port := .waiting req (.readPath { r with wait := .bus, verifyBuffer := some n })
        table := { s.table with buffers := s.table.buffers.set n.val b n.isLt }
        bus := { s.bus with hostReads := s.bus.hostReads ++ [.verify n] } }
      (s.port = .idle → s.control.mode = .running → laneL || laneU → s.layout.classify req = .mapped t →
          r.values = [] → r.retries = 0 →
          exec (.hostAccessTaken false half laneL laneU hd) s = .next after.settle)
        ∧ (s.port = .waiting req (.readPath r) → r.wait = .buffer →
          exec .verifyAllocationRetry s = .next after.settle)

/-! ### Seals, selection and runs -/

/-- R28, R30: at its deadline a GATHER buffer is sealed at the tail of the queue, where it stays while its device is not
READY and no queued buffer is admitted. R43, R45, R46, R62, R99: sealed into an empty queue with its device READY and free
of commits, and no older generation of its page HELD, it is taken at the same event: by its window and its written mask
it enters COMMIT with its runs, or FILL, and its transaction joins the request list. Nothing else changes. -/
def Obligations.ExpiredBuffersAreSealedAndTaken : Prop :=
  ∀ (s : State) (n : Index) (h : PageHold) (deadline : Word),
    let size := s.pageSizeOf h
    let after := fun b : Buffer => { s with
      table := s.tableWith n b [], engine := { s.engine with requests := s.engine.requests ++ [n] } }
    (s.buffer n).hold = some h → h.phase = .gather deadline → deadlineReached h.lastWrite deadline s.uptime →
    ((s.record h.device).status.isReady = false → (∀ m ∈ s.table.queue, s.admits m = false) → n ∉ s.table.queue →
      exec (.gatherDeadlineExpiry n) s = .next ({ s with
        table := s.tableWith n { s.buffer n with hold := some { h with phase := .sealed false } }
          (s.table.queue ++ [n]) }).settle)
    ∧ ∀ checked mergeFill : Bool, s.deviceAdmits h.device → s.table.queue = [] →
      (∀ m, s.ofPage h.device h.page m → s.generationOf m < h.generation → s.bufferState m ≠ .held) →
      s.pageAttributes h.device h.page checked mergeFill →
      (checked = false → ¬(mergeFill ∧ hasHoles h.written size) →
        exec (.gatherDeadlineExpiry n) s = .next (after { s.buffer n with
          hold := some { h with phase := .commit false (runsOf h.written size) } }).settle)
      ∧ (checked = false → mergeFill ∧ hasHoles h.written size →
        exec (.gatherDeadlineExpiry n) s = .next (after { s.buffer n with
          hold := some { h with phase := .fill false } }).settle)
      ∧ (checked = true → pageComplete true size h.written = false →
        exec (.gatherDeadlineExpiry n) s = .next (after { s.buffer n with
          hold := some { h with phase := .fill false } }).settle)
      ∧ (checked = true → pageComplete true size h.written = true →
        exec (.gatherDeadlineExpiry n) s = .next (after
          { image := (s.buffer n).image.placeWord size
            hold := some { h with source := h.source ||| Mask.of [size - 2, size - 1]
                                  phase := .commit false [{ first := 0, count := size }] } }).settle)

/-- R62: the runs of a mask are its maximal groups of consecutive positions: each position below the size lies in a run
exactly when the mask has it, the runs are not empty, and between two runs a position is missing. -/
def Obligations.RunsAreMaximalGroups : Prop :=
  ∀ (m : Mask) (size : Nat), size ≤ 64 →
    (∀ p, (∃ r ∈ runsOf m size, r.first ≤ p ∧ p < r.first + r.count) ↔ p < size ∧ m.has p)
      ∧ (∀ r ∈ runsOf m size, 0 < r.count)
      ∧ (runsOf m size).Pairwise fun r q => r.first + r.count < q.first

/-- R90: the check word starts from FFFFh, takes each byte in turn into its high eight bits and shifts eight times with
1021h; the nine bytes 31h to 39h give 29B1h; the word over a page's other bytes is placed in its last two, high byte
first, and a page matches when they hold it; a record accepted has it over bytes 0 to 141 in bytes 142 and 143. -/
def Obligations.CheckWordFollowsItsRule : Prop :=
  checkWord [] = 0xFFFF#16
    ∧ (∀ bs b, checkWord (bs ++ [b]) =
        (List.range 8).foldl (fun (c : Half) _ => (c <<< 1) ^^^ (if c.getLsbD 15 then 0x1021#16 else 0#16))
          (checkWord bs ^^^ (b ++ 0#8)))
    ∧ checkWord [0x31#8, 0x32#8, 0x33#8, 0x34#8, 0x35#8, 0x36#8, 0x37#8, 0x38#8, 0x39#8] = 0x29B1#16
    ∧ (∀ (bs : List Byte) (a b : Byte), pageMatches (bs ++ [a, b]) ↔ checkWord bs = a ++ b)
    ∧ (∀ (im : Image) (size p : Nat), 2 ≤ size → size ≤ 64 → p < 64 →
        let word := checkWord ((List.range (size - 2)).map im.byte)
        (im.placeWord size).byte p = if p = size - 2 then word.extractLsb' 8 8
          else if p = size - 1 then word.extractLsb' 0 8 else im.byte p)
    ∧ ∀ r : List Byte, validate r = none → checkWord (r.take 142) = r.getD 142 0#8 ++ r.getD 143 0#8

/-! ### Write runs, fills and write cycles -/

/-- R50, R64: the completed run of a CYCLED device leaves its buffer in CYCLE with the other runs and a retry count of 0,
its device CYCLING from now, and the bus closed; the other buffers and the queue stay. R49, R64, R66: that of an IMMEDIATE
device clears the device's count, and its buffer's next run joins the request list at once; with no run left the commit ends:
with the page unchecked the buffer is FREE, and with it checked CLEAN (R102), in FLUSHING FREE (R41). -/
def Obligations.CompletedRunStartsTheWriteCycle : Prop :=
  ∀ (s : State) (n : Index) (h : PageHold) (forced : Bool) (run : Run) (rest : List Run),
    s.ModeOrdered → s.carries (.run n) → (s.buffer n).hold = some h → h.phase = .commit forced (run :: rest) →
    (s.isImmediate h.device = false → ∃ t, exec (.writeRunEnd .completed) s = .next t
      ∧ t.table = s.tableWith n { s.buffer n with hold := some { h with retries := 0, phase := .cycle forced rest } }
          s.table.queue
      ∧ t.record h.device = s.cyclingNow ∧ (∀ d, d ≠ h.device → t.record d = s.record d)
      ∧ t.engine.requests = s.engine.requests.filter (fun m => s.deviceOf m != some h.device)
      ∧ t.bus.transaction = none ∧ t.bus.freeAt = (s.bus.afterClose s.layout.params.rate s.now).freeAt
      ∧ t.slot = s.slot ∧ t.reads.ahead = s.reads.ahead ∧ t.service = s.service)
    ∧ (s.isImmediate h.device = true → s.undisturbed → (s.record h.device).status = .ready →
      ∃ t, exec (.writeRunEnd .completed) s = .next t ∧ t.record h.device = { s.record h.device with nacks := 0 }
        ∧ (∀ d, d ≠ h.device → t.record d = s.record d) ∧ t.bus.transaction = none
        ∧ t.bus.freeAt = (s.bus.afterClose s.layout.params.rate s.now).freeAt ∧ t.slot = s.slot
        ∧ t.reads = s.reads ∧ t.service = s.service ∧ t.events = s.events
        ∧ (rest ≠ [] → t.table = s.tableWith n
              { s.buffer n with hold := some { h with retries := 0, phase := .commit forced rest } } s.table.queue
            ∧ t.engine.requests = s.engine.requests ++ [n])
        ∧ (rest = [] → n ∉ s.engine.requests → n ∉ s.table.queue →
          n ∉ t.engine.requests
          ∧ (s.isChecked h.device h.page = false → t.buffer n = { s.buffer n with hold := none })
          ∧ (s.isChecked h.device h.page = true →
            let others := fun m : Index =>
              m ≠ n ∧ s.ofPage h.device h.page m ∧ (s.bufferState m = .clean ∨ s.bufferState m = .verify)
            (∀ m, others m → t.bufferState m = .free)
            ∧ (s.control.mode = .flushing → t.buffer n = { s.buffer n with hold := none })
            ∧ (s.control.mode ≠ .flushing → ∃ g ≤ h.generation,
                t.buffer n = { s.buffer n with
                  hold := some { h with generation := g, written := 0#64, retries := 0, phase := .clean s.uptime } }
                ∧ ((∀ m, ¬others m) → g = h.generation)))))

/-- R33, R65, R67: a refused byte holds the buffer with DATA_REFUSED, its image and masks kept, counts BUFFER_HELD and,
with room in the log, logs the fault with the byte index; a CYCLED device is CYCLING from now exactly when a data byte
had been acknowledged. No byte is refused that has been acknowledged already (log entry 15). -/
def Obligations.RefusedByteHoldsTheBuffer : Prop :=
  ∀ (s : State) (n : Index) (h : PageHold) (forced : Bool) (run : Run) (rest : List Run) (i : Nat),
    s.carries (.run n) → (s.buffer n).hold = some h → h.phase = .commit forced (run :: rest) →
    s.isImmediate h.device = false → (s.record h.device).status = .ready → s.undisturbed →
    s.events.log.length < 8 → i < (s.device h.device).addressBytes + run.count → s.byteToCome i →
    ∃ t, exec (.writeRunEnd (.dataNack i)) s = .next t
      ∧ t.buffer n = { s.buffer n with hold := some { h with phase := .held .dataRefused } }
      ∧ t.events.log = s.events.log ++ [{ number := s.events.counter, time := s.uptime, info :=
          { kind := .dataRefused, detail := BitVec.ofNat 8 i, device := some h.device
            window := s.windowOf h.device h.page, buffer := some n, place := some (h.page * s.pageSizeOf h) } }]
      ∧ t.events.count 2 = min 255 (s.events.count 2 + 1)
      ∧ t.record h.device = (if (s.device h.device).addressBytes < i then s.cyclingNow else s.record h.device)
      ∧ n ∉ t.engine.requests ∧ n ∉ t.table.queue
      ∧ (∀ m, m ≠ n → s.bufferState m ≠ .sealed → t.buffer m = s.buffer m) ∧ t.slot = s.slot

/-- R48: an address NACK met by a run or a fill of a READY CYCLED device makes it CYCLING from now and takes its
transaction off the request list; the buffers stay as they are, and no retry is counted. -/
def Obligations.BusyDeviceDefersItsCommit : Prop :=
  ∀ (s : State) (n : Index) (h : PageHold) (forced : Bool), s.ModeOrdered → (s.buffer n).hold = some h →
    s.isImmediate h.device = false → (s.record h.device).status = .ready →
    let outcome := fun t : State => t.table = s.table ∧ t.record h.device = s.cyclingNow
      ∧ (∀ d, d ≠ h.device → t.record d = s.record d)
      ∧ t.engine.requests = s.engine.requests.filter (fun m => s.deviceOf m != some h.device)
      ∧ t.bus.transaction = none ∧ t.slot = s.slot ∧ t.service = s.service
    (∀ run rest, s.carries (.run n) → h.phase = .commit forced (run :: rest) →
        s.addressToCome false → ∃ t, exec (.writeRunEnd .addressNack) s = .next t ∧ outcome t)
      ∧ ∀ reopened, s.carries (.fill n) → h.phase = .fill forced → s.addressToCome reopened →
        ∃ t, exec (.fillEnd (.addressNack reopened)) s = .next t ∧ outcome t

/-- R60, R111: a completed merge-fill gives the unwritten positions of the span the bytes received and keeps the written
ones, sets the span in the source mask, makes one run over it, clears the retry count, and joins the request list. R100: a
checked fill that matches, or whose buffer is forced, does so over the whole page, with the check word of the merged data
placed in the last two positions. R33, R57, R101: one that is not forced and does not match holds its buffer with
CHECK_MISMATCH and a retry count of 0, the source mask reduced to the written mask and the image as it was, counts
CHECK_MISMATCH and BUFFER_HELD and logs the fault. The bytes are those that ticks brought and the rest (log entry 18), the
first of the rest as its bits received (log entry 20). -/
def Obligations.CompletedFillsMergeOrHold : Prop :=
  ∀ (s : State) (n : Index) (h : PageHold) (forced : Bool) (bytes : List Byte),
    let span := writtenSpan h.written (s.pageSizeOf h)
    let size := s.pageSizeOf h
    let whole := s.handed ++ bytes
    s.ModeOrdered → s.carries (.fill n) → s.agrees bytes → (s.buffer n).hold = some h → h.phase = .fill forced →
    (s.isChecked h.device h.page = false → (s.record h.device).status = .ready → whole.length = span.count →
      ∃ t b, exec (.fillEnd (.completed bytes)) s = .next t ∧ t.table = s.tableWith n b s.table.queue
        ∧ (∀ p, p < 64 → b.image.byte p =
            if span.first ≤ p ∧ p < span.first + span.count ∧ h.written.has p = false then
              whole.getD (p - span.first) 0#8
            else (s.buffer n).image.byte p)
        ∧ b.hold = some { h with source := h.source ||| Mask.span span.first span.count, retries := 0
                                 phase := .commit forced [span] }
        ∧ t.engine.requests = s.engine.requests ++ [n] ∧ t.bus.transaction = none ∧ t.slot = s.slot)
    ∧ (s.isChecked h.device h.page = true → (s.record h.device).status = .ready → whole.length = size →
      forced = true ∨ pageMatches whole = true →
      ∃ t b merged, exec (.fillEnd (.completed bytes)) s = .next t ∧ t.table = s.tableWith n b s.table.queue
        ∧ (∀ p, p < 64 → Image.byte merged p =
            if p < size - 2 ∧ h.written.has p = false then whole.getD p 0#8 else (s.buffer n).image.byte p)
        ∧ b.image = merged.placeWord size
        ∧ b.hold = some { h with source := h.source ||| Mask.span 0 size, retries := 0
                                 phase := .commit forced [{ first := 0, count := size }] }
        ∧ t.engine.requests = s.engine.requests ++ [n] ∧ t.bus.transaction = none ∧ t.slot = s.slot)
    ∧ (s.isChecked h.device h.page = true → forced = false → whole.length = size →
      pageMatches whole = false → s.undisturbed → s.events.log.length < 8 →
      ∃ t, exec (.fillEnd (.completed bytes)) s = .next t
        ∧ t.buffer n = { s.buffer n with
            hold := some { h with source := h.written, retries := 0, phase := .held .checkMismatch } }
        ∧ t.events.log = s.events.log ++ [{ number := s.events.counter, time := s.uptime, info :=
            { kind := .checkMismatchFill, detail := if whole.all (· == 0xFF#8) then 1#8 else 0#8, device := some h.device
              window := s.windowOf h.device h.page, buffer := some n, place := some (h.page * s.pageSizeOf h) } }]
        ∧ t.events.count 5 = min 255 (s.events.count 5 + 1) ∧ t.events.count 2 = min 255 (s.events.count 2 + 1)
        ∧ (∀ m, m ≠ n → s.bufferState m ≠ .sealed → t.buffer m = s.buffer m) ∧ t.slot = s.slot)

/-- R95, R111: a VERIFY read that matches leaves its buffer CLEAN with the page received, and a read of the page that waits
for it is answered from it. R96, R144: one that does not match frees its buffer, counts CHECK_MISMATCH and logs exactly one
fault, and a read that waits for it is refused with that fault and HERR. The bytes are those that ticks brought and the rest
(log entry 18), the first of the rest as its bits received (log entry 20). -/
def Obligations.VerifyReadsEndCleanOrFree : Prop :=
  ∀ (s : State) (n : Index) (h : PageHold) (start : Nat) (bytes : List Byte),
    s.carries (.verify n) → s.agrees bytes → (s.buffer n).hold = some h → h.phase = .verify start →
    let whole := s.handed ++ bytes
    whole.length = s.pageSizeOf h →
    (pageMatches whole = true → whole.length ≤ 64 → s.control.mode = .running →
      (∀ m, m ≠ n → ¬s.ofPage h.device h.page m) → s.reads.stream.isParked = false →
      (∀ req r, s.port = .waiting req (.readPath r) → r.verifyBuffer = some n →
        r.translation.device = h.device ∧ r.translation.page = h.page
          ∧ ∀ pos ∈ r.translation.positions.drop r.values.length, pos < whole.length) →
      ∃ t, exec (.verifyReadEnd bytes) s = .next t
        ∧ t.buffer n = { image := (s.buffer n).image.place 0 whole
                         hold := some { h with source := Mask.span 0 whole.length, written := 0#64, retries := 0
                                               phase := .clean s.uptime } }
        ∧ (∀ m, m ≠ n → t.buffer m = s.buffer m) ∧ t.table.queue = s.table.queue
        ∧ t.engine.requests = s.engine.requests ∧ t.bus.transaction = none
        ∧ ∀ req r, s.port = .waiting req (.readPath r) → r.verifyBuffer = some n →
            t.port = .answered req { herr := false, hd := some (req.onLanes
              (r.values ++ (r.translation.positions.drop r.values.length).map fun pos => whole.getD pos 0#8)) })
    ∧ (pageMatches whole = false → s.control.mode.isReloading = false → s.events.log.length < 8 →
      ∃ t, exec (.verifyReadEnd bytes) s = .next t ∧ t.bufferState n = .free
        ∧ t.events.count 5 = min 255 (s.events.count 5 + 1) ∧ t.engine.requests = s.engine.requests
        ∧ (let fault : FaultRecord := { number := s.events.counter, time := s.uptime, info :=
            { kind := .checkMismatchRead, detail := if whole.all (· == 0xFF#8) then 1#8 else 0#8, device := some h.device
              window := s.windowOf h.device h.page, buffer := some n, place := some start } }
          (s.port.isWaiting = false → t.events.log = s.events.log ++ [fault])
            ∧ ∀ req r, s.port = .waiting req (.readPath r) → r.verifyBuffer = some n →
              t.events.log = s.events.log ++ [fault] ∧ t.port = .answered req (refusedWith req.write)))

/-- R97: a refused memory address byte of a VERIFY read counts one retry below the limit and asks for the read again; an
address NACK of a READY CYCLED device makes it CYCLING, and the read that waits for the page waits for the device. That the
read waits on for the VERIFY, its byte not asked of forwarding anew, is log entry 45. -/
def Obligations.FailedVerifyReadIsMadeAgain : Prop :=
  ∀ (s : State) (n : Index) (h : PageHold) (start i : Nat) (req : HostRequest) (r : ReadRecord) (reopened : Bool),
    s.carries (.verify n) → (s.buffer n).hold = some h → h.phase = .verify start →
    s.port = .waiting req (.readPath r) → r.verifyBuffer = some n → (s.record h.device).status = .ready →
    s.isImmediate h.device = false → r.translation.device = h.device → s.control.mode.isReloading = false →
    (i < (s.device h.device).addressBytes → s.byteToCome i → h.retries < s.layout.params.retries →
      ∃ t, exec (.verifyReadFailure (.dataNack i)) s = .next t
        ∧ t.table = s.tableWith n { s.buffer n with hold := some { h with retries := h.retries + 1 } } s.table.queue
        ∧ t.bus.hostReads = s.bus.hostReads ++ [.verify n] ∧ t.port = .waiting req (.readPath { r with wait := .bus })
        ∧ t.engine = s.engine ∧ t.bus.transaction = none)
    ∧ (s.addressToCome reopened → ∃ t, exec (.verifyReadFailure (.addressNack reopened)) s = .next t ∧ t.table = s.table
        ∧ t.record h.device = s.cyclingNow ∧ t.port = .waiting req (.readPath { r with wait := .device })
        ∧ t.bus.transaction = none)

/-- R52, R56, R66: an acknowledged probe returns its device to READY with a count of 0, counting DEVICE_REVIVED from
SILENT; the device's buffer in CYCLE goes to COMMIT with its next run, which joins the request list, or with none left
and its page unchecked becomes FREE. R102: with its page checked it is CLEAN, its written mask clear, its source mask,
image and generation kept but for the close-up, and the other CLEAN buffers of the page and its VERIFY read not yet
granted become FREE; in FLUSHING it is FREE itself (R41). -/
def Obligations.AcknowledgedProbeEndsTheCycle : Prop :=
  ∀ (s : State) (d : Index), s.carries (.probe d) → s.undisturbed →
    ∃ t, exec (.probeEnd true) s = .next t ∧ t.record d = { status := .ready, nacks := 0 }
      ∧ (∀ e, e ≠ d → t.record e = s.record e) ∧ t.bus.transaction = none ∧ t.slot = s.slot
      ∧ t.events.count 4 = (if s.isSilent d then min 255 (s.events.count 4 + 1) else s.events.count 4)
      ∧ (∀ n h forced, s.OneCommitEach → (s.buffer n).hold = some h → h.device = d →
          (∀ run rest, h.phase = .cycle forced (run :: rest) →
            t.buffer n = { s.buffer n with hold := some { h with phase := .commit forced (run :: rest) } }
              ∧ n ∈ t.engine.requests)
          ∧ (h.phase = .cycle forced [] → s.isChecked d h.page = false → t.buffer n = { s.buffer n with hold := none })
          ∧ (h.phase = .cycle forced [] → s.isChecked d h.page = true →
            let others := fun m : Index => m ≠ n ∧ s.ofPage d h.page m ∧ (s.bufferState m = .clean ∨ s.bufferState m = .verify)
            (∀ m, others m → t.bufferState m = .free)
            ∧ (s.control.mode = .flushing → t.buffer n = { s.buffer n with hold := none })
            ∧ (s.control.mode ≠ .flushing → ∃ g ≤ h.generation,
                t.buffer n = { s.buffer n with
                  hold := some { h with generation := g, written := 0#64, retries := 0, phase := .clean s.uptime } }
                ∧ ((∀ m, ¬others m) → g = h.generation))))

/-- R53, R55, R67, R113: a NACKed probe of a CYCLING device raises its count; within the write-cycle limit the next probe is
set; past it the device is SILENT with its next probe in 50 ms, every buffer of it in a dirty state short of HELD is HELD,
and DEVICE_SILENT and, with room in the log, CYCLE_TIMEOUT record it. No NACK comes once its address has been acknowledged and
its close is sent (log entry 15). -/
def Obligations.NackedProbeTestsTheCycleLimit : Prop :=
  ∀ (s : State) (d : Index) (start : Stamp) (p : ProbeTimer) (k : Nat), s.carries (.probe d) → s.undisturbed →
    s.OneCommitEach →
    s.record d = { status := .cycling start p, nacks := k } →
    (s.phase = some .close → exec (.probeEnd false) s = .next s)
    ∧ (s.phase ≠ some .close → ¬(s.device d).cycleLimit * 10 < start.elapsed s.now →
      ∃ t, exec (.probeEnd false) s = .next t ∧ t.table = s.table ∧ t.events = s.events ∧ t.bus.transaction = none
        ∧ t.record d = { status := .cycling start { next := { since := s.now, period := s.layout.params.poll }, due := false }
                         nacks := min 255 (k + 1) }
        ∧ (∀ e, e ≠ d → t.record e = s.record e))
    ∧ (s.phase ≠ some .close → (s.device d).cycleLimit * 10 < start.elapsed s.now → s.events.log.length < 8 →
      ∃ t, exec (.probeEnd false) s = .next t
        ∧ t.record d = { status := .silent { next := { since := s.now, period := 500 }, due := false }
                         nacks := min 255 (k + 1) }
        ∧ t.events.count 3 = min 255 (s.events.count 3 + 1)
        ∧ (∃ x, t.events.log = s.events.log ++ [x] ∧ x.info.kind = .cycleTimeout ∧ x.info.device = some d)
        ∧ ∀ n h, (s.buffer n).hold = some h → h.device = d → (s.bufferState n).uncommitted →
            ∃ h', (t.buffer n).hold = some h' ∧ (t.buffer n).image = (s.buffer n).image ∧ h'.written = h.written
              ∧ h'.source = h.source
              ∧ h'.phase = .held (if (s.bufferState n).committing then .cycleTimeout else .deviceSilent))

/-! ### The arbiter and the stream -/

/-- R63, R77, R94, R109, R116, R117, R121, R131: with the bus FREE, or in FOREIGN with SDA held low, the grant goes to the
first request of the arbiter's order; the request leaves the arbiter, its transaction begins, the marks and counts follow,
and the bus is OWNED, or CLEARING for a bus clear. The clear of a grant is taken when SDA has been held low for 1 ms, with
the bus timer as log entry 4 has it and the grant's effects at that row (log entry 29), and not before. The bytes remaining
count data bytes alone (log entry 38). A read that waited for the grant is served by the transaction, its byte not asked of
forwarding anew (log entry 44). -/
def Obligations.GrantsGoToTheFirstInOrder : Prop :=
  ∀ (s : State) (g : Grant), s.firstInOrder g → s.ModeOrdered → s.reads.stream.isParked = false →
    let outcome := fun t : State => s.arbiterAfter g t.bus ∧ s.grantedAs t g ∧ t.table = s.table ∧ t.service = s.service
      ∧ t.layout = s.layout ∧ t.bus.freeAt = none
    (s.bus.status = .free → ∃ t, exec .busGrant s = .next t ∧ t.bus.status = .owned ∧ outcome t)
      ∧ ∀ start, s.bus.status = .foreign → s.bus.heldData = some start →
        (s.comesDue (start + 20000#32) 20000 →
          ∃ t, exec .busClearGrant s = .next t ∧ t.bus.status = .clearing ∧ t.bus.clear = some .grant
            ∧ t.bus.timer = s.bus.timerAt (start + 20000#32) 20000 ∧ outcome t)
        ∧ (¬s.comesDue (start + 20000#32) 20000 → exec .busClearGrant s = .next s)

/-- R49, R77, R81, R118: an acknowledged open makes the stream RUNNING for the read it serves; with no read, CLOSING when
another request waits or the mode demands it. R48, R83: an address NACK of a READY CYCLED device leaves the stream CLOSED,
the device CYCLING from now, and the read waiting for it with no retry counted; one of an IMMEDIATE device within the
retry limit raises its count, from 0 where the re-open is refused after an acknowledged open (log entry 23), and refuses
the read with READ_NACK. The causes to close are those that stand at the acknowledge (log entry 34); that a stream whose
queue a reload has emptied while it was open becomes CLOSING there with no other cause is log entry 7. -/
def Obligations.StreamOpensRunOrMeetANack : Prop :=
  ∀ (s : State) (p : StreamPos) (reopened : Bool), s.reads.stream = .opening p → s.carries .stream →
    s.control.mode.isReloading = false →
    (∃ t, exec .streamOpenAddressed s = .next t ∧ t.reads.ahead = s.reads.ahead ∧ t.table = s.table ∧ t.slot = s.slot
      ∧ t.record p.device = (if s.isImmediate p.device then { s.record p.device with nacks := 0 } else s.record p.device)
      ∧ (∀ req r, s.streamServes p req r → t.reads.stream = .running p)
      ∧ (s.noReadWaits → t.reads.stream =
          if s.otherWaits || s.control.mode.demandsClose || s.reads.dropsAhead then .closing p else .running p))
    ∧ (s.isImmediate p.device = false → (s.record p.device).status = .ready →
      ∀ req r, s.streamServes p req r → s.addressToCome reopened →
        ∃ t, exec (.streamOpenNacked reopened) s = .next t ∧ t.table = s.table ∧ t.bus.transaction = none
          ∧ t.reads = { stream := .closed, ahead := s.reads.ahead, dropsAhead := false }
          ∧ t.record p.device = s.cyclingNow ∧ t.events = s.events
          ∧ t.port = .waiting req (.readPath { r with wait := .device }))
    ∧ (let k := min 255 ((if reopened then 0 else (s.record p.device).nacks) + 1)
      s.isImmediate p.device = true → k ≤ s.layout.params.retries → s.addressToCome reopened →
      ∀ req r, s.streamServes p req r →
        ∃ t, exec (.streamOpenNacked reopened) s = .next t ∧ t.table = s.table ∧ t.bus.transaction = none
          ∧ t.reads = { stream := .closed, ahead := s.reads.ahead, dropsAhead := false }
          ∧ t.record p.device = { s.record p.device with nacks := k }
          ∧ t.port = .answered req (refusedWith false)
          ∧ t.events = (s.events.arrive .readFailed).append
              { kind := .readNack, detail := BitVec.ofNat 8 k, device := some p.device
                window := some r.translation.window, buffer := none
                place := some (req.firstAddress + r.values.length) })

/-- R84, R86: a refused memory address byte of a stream open leaves the stream CLOSED and the queue as it is; below the
retry limit the read counts a retry and asks for the open again, at the limit it is refused with READ_RETRIES. -/
def Obligations.RefusedAddressBytesAreRetried : Prop :=
  ∀ (s : State) (p : StreamPos) (i : Nat) (req : HostRequest) (r : ReadRecord), s.reads.stream = .opening p →
    s.carries .stream → s.control.mode.isReloading = false → s.streamServes p req r →
    i < (s.device p.device).addressBytes → s.byteToCome i →
    (∀ pos rest, r.retries < s.layout.params.retries → r.translation.positions.drop r.values.length = pos :: rest →
      s.heldNowhere p.device r.translation.page pos →
      s.reads.ahead.holds p.device (r.translation.pageStart + pos) = false → (s.record p.device).status = .ready →
      ∃ t, exec (.streamOpenDataNack i) s = .next t ∧ t.table = s.table ∧ t.events = s.events
        ∧ t.reads = { stream := .closed, ahead := s.reads.ahead, dropsAhead := false } ∧ t.bus.transaction = none
        ∧ t.port = .waiting req (.readPath { r with retries := r.retries + 1, wait := .bus })
        ∧ t.bus.hostReads = s.bus.hostReads ++ [.streamOpen p.device (r.translation.pageStart + pos)])
    ∧ (s.layout.params.retries ≤ r.retries →
      ∃ t, exec (.streamOpenDataNack i) s = .next t ∧ t.table = s.table
        ∧ t.reads = { stream := .closed, ahead := s.reads.ahead, dropsAhead := false } ∧ t.bus.transaction = none
        ∧ t.port = .answered req (refusedWith false)
        ∧ t.events = (s.events.arrive .readFailed).append
            { kind := .readRetries, detail := 3#8, device := some p.device, window := some r.translation.window
              buffer := none, place := some (req.firstAddress + r.values.length) })

/-- R72, R74, R78 to R82: the last byte a read needs answers it and empties the queue; a byte with no read joins the
queue, or with no room is dropped and empties it; a closing byte joins the queue with room, and the stream is CLOSED. At
the last offset of the block the stream closes, before it goes on, parks or closes as R79 to R81 give, by the causes that
stand at the end of the byte (log entry 34). A close that follows a NACKed byte is sent from there on, with its free deadline
(log entry 47). A parked stream becomes CLOSING at its deadline, and the bridge releases SCL to clock the next byte (R112). No
byte joins a queue that a reload has emptied while the stream is open (R88, R171, log entry 7). -/
def Obligations.StreamBytesServeReadsAndTheQueue : Prop :=
  ∀ (s : State) (p : StreamPos) (v : Byte), s.control.mode.isReloading = false → s.agrees [v] →
    let closing := s.bus.closing s.layout.params.rate
    let onward := fun (t : State) (entries : Nat) =>
      if p.next = p.last then t.reads.stream = .closed ∧ t.bus.transaction = none ∧ t.bus.wire = closing.wire
        ∧ t.bus.freeAt = closing.freeAt
      else t.reads.stream = s.streamOnward { p with next := p.next + 1 } entries
    (s.carries .stream → s.reads.stream = .running p → ∀ req r pos, s.streamServes p req r →
      r.translation.positions.drop r.values.length = [pos] →
      ∃ t, exec (.streamByteReceived v) s = .next t ∧ t.table = s.table ∧ t.events = s.events
        ∧ t.port = .answered req { herr := false, hd := some (req.onLanes (r.values ++ [v])) }
        ∧ t.reads.ahead = { device := 0, first := 0, bytes := [] } ∧ onward t 0)
    ∧ (s.carries .stream → s.reads.stream = .running p → s.noReadWaits →
      ∃ t, exec (.streamByteReceived v) s = .next t ∧ t.table = s.table
        ∧ t.reads.ahead = (if s.layout.params.depth ≤ s.reads.ahead.bytes.length then
              { device := 0, first := 0, bytes := [] }
            else if s.reads.dropsAhead then s.reads.ahead else s.reads.ahead.joined p v)
        ∧ onward t t.reads.ahead.bytes.length)
    ∧ (s.carries .stream → s.reads.stream = .closing p → s.noReadWaits →
      ∃ t, exec (.streamByteReceived v) s = .next t ∧ t.table = s.table ∧ t.reads.stream = .closed
        ∧ t.bus.transaction = none ∧ t.bus.wire = closing.wire ∧ t.bus.freeAt = closing.freeAt
        ∧ t.reads.ahead = (if s.reads.ahead.bytes.length < s.layout.params.depth ∧ s.reads.dropsAhead = false then
              s.reads.ahead.joined p v
            else s.reads.ahead))
    ∧ ∀ deadline, s.reads.stream = .parked p deadline → deadline.period ≤ deadline.since.elapsed s.now →
      exec .parkDeadlineExpiry s = .next ({ s with
        reads := { s.reads with stream := .closing p }
        bus := { s.bus with
          transaction := s.bus.transaction.map fun x : Transaction => { x with phase := .receive }
          wire := if s.bus.status = BusStatus.owned ∧ s.bus.transaction ≠ none then
              some { half := .clockHigh [], since := s.bus.timer } else none } }).settle

/-! ### The lines and the bus state -/

/-- R105 to R107, R122, R123: what another party does on the lines: a fall of SDA or of SCL makes a FREE bus FOREIGN,
ends a recovery watch and starts the held-data time or the low period; a rise of SDA starts the bus-free time in FOREIGN;
a rise of SCL ends the low period, the half bit that it lengthened being timed from there (R120); the awaited time frees a
FOREIGN bus, and not before it has come. Nothing but the bus record changes. While the bridge holds SCL low, SDA moves with no
open and no close (R104). The bridge drives no line between a transaction and the next, nor after the close of the clear made
for a grant (R121). Which events can fall while it drives a line is log entry 30, that a park sees none log entry 25, the bus
timer at the awaited time log entry 4, and that a fall of a line in FOREIGN ends a free deadline log entry 46. -/
def Obligations.OtherPartiesMoveTheLines : Prop :=
  ∀ (s : State) (sda : Bool),
    let b : Bus := s.bus
    let fallen : Bus := { b with
      status := if b.status = .free then .foreign else b.status
      freeAt := if b.status = .free ∨ b.status = .foreign then none else b.freeAt
      watch := if b.status = .stuck then none else b.watch, idleHigh := none }
    let undriven := b.clear = none ∧ b.wire = none ∧ (b.transaction = none ∨ b.status = .clearing)
    let sclFalls := fun wire : Option Wire => exec (.foreignOpen .scl) s = .next (s.withBus { fallen with
      scl := false, heldData := none, lowStart := some s.now, wire := wire }).settle
    (b.scl = true → b.sda = true → undriven →
      exec (.foreignOpen .sda) s = .next (s.withBus { fallen with
        sda := false, heldData := if b.status = .free ∨ b.status = .foreign then some b.timer else none }).settle)
    ∧ (b.scl = true → s.phase ≠ some .park →
      (∀ h since, s.inHalf h since → sclFalls (some { half := h.onRelease, since := b.timer }))
      ∧ ((∀ h since, ¬s.inHalf h since) → sclFalls none))
    ∧ (b.scl = true → b.sda = false → undriven →
      exec .foreignClose s = .next (s.withBus { b with
        sda := true, idleHigh := some (b.lineTime s.now), heldData := none
        freeAt := if b.status = .foreign then (b.afterClose s.layout.params.rate s.now).freeAt else b.freeAt }).settle)
    ∧ (s.drives .scl = true →
      exec (.foreignOpen .sda) s = .next (s.withBus { b with sda := false, idleHigh := none }).settle
      ∧ exec .foreignClose s = .next (s.withBus { b with sda := true }).settle)
    ∧ (b.lowStart ≠ none → undriven →
      exec (.foreignLowPeriodEnd sda) s = .next (s.withBus { b with
        scl := true, sda := sda, lowStart := none, idleHigh := if sda then some (b.lineTime s.now) else none
        heldData := if sda = false ∧ b.status = .foreign then some b.timer else none }).settle)
    ∧ (b.lowStart ≠ none → ¬undriven →
      exec (.foreignLowPeriodEnd sda) s = .next (s.withBus { b with
        scl := true, lowStart := none, wire := b.wire.map fun w => { half := w.half, since := b.timer } }).settle)
    ∧ ∀ start, b.status = .foreign → b.idleHigh = some start →
      let awaited := b.freeAt.getD (start.timer + 2000#32)
      (s.comesDue awaited 2000 → exec .foreignBusFree s = .next (s.withBus { b with
        timer := b.timerAt awaited 2000, status := .free, wire := none, freeAt := none, heldData := none
        nextCheck := none, watch := none }).settle)
      ∧ (¬s.comesDue awaited 2000 → exec .foreignBusFree s = .next s)

/-- R104, R106, R112, R121: a line is high unless the bridge or another party drives it low; the bridge drives SCL low in the
low half of a re-open's first bit, of a close, of each clock and of each pulse, and in a park, and SDA for the fall of an open
or a re-open, for a close, for each bit 0 of a byte it sends, the most significant bit first, and to acknowledge. Each half bit
lasts half a bit time on the bus timer and waits while another party holds SCL low (R120). Its end leads to the next: of a byte
to the next clock, with the level of SDA sampled (R111), or to an arbitration loss where SDA is low on a bit that the bridge
released (R119); of the ninth clock to what the byte brings, by the acknowledge (R110); of a close to its report (R114); of a
pulse to the close with SDA high, to the next pulse, or after nine to the failure. That a passage of time ends at most one half
bit, that SDA is sampled at the end of the high half, and which command stands for each report are log entries 15 and 47. -/
def Obligations.HalfBitsFollowEachOther : Prop :=
  (∀ (s : State) (n : Nat),
    (∀ line, s.level line = true ↔ s.drives line = false ∧ (match line with
      | .scl => s.bus.scl
      | .sda => s.bus.sda) = true)
    ∧ ((∀ h since, ¬s.inHalf h since) →
      s.drives .sda = false ∧ (s.drives .scl = true ↔ s.bus.status = .owned ∧ s.phase = some .park)
      ∧ s.pass n = s.withBus { s.bus with timer := s.bus.timer + BitVec.ofNat 32 (min n s.stepsLeft) }))
  ∧ ∀ (s : State) (h : HalfBit) (since : Word) (n : Nat), s.inHalf h since →
    let b : Bus := s.bus
    let left := s.layout.params.rate.halfTime - (b.timer - since).toNat
    let room := min n s.stepsLeft
    let ended : State := s.withBus { b with timer := b.timer + BitVec.ofNat 32 left, wire := none }
    let begins := fun next : HalfBit =>
      s.pass n = ended.withBus { ended.bus with wire := some { half := next, since := ended.bus.timer } }
    let reports := fun c : Instr => exec c ended = .next (s.pass n)
    let brings := fun v : BusByte => s.pass n = ended.busByte v
    let loses := ∀ sent, s.sendsByte sent →
      reports (.arbitrationLoss { addressed := false, sent := sent, received := [] })
    (s.drives .scl = true ↔ b.lowStart = none ∧ h.holdsScl)
    ∧ (match h with
      | .open | .reopenFall | .closeLow _ | .closeHigh _ => s.drives .sda = true
      | .reopenLow | .reopenHigh | .pulseLow _ | .pulseHigh _ => s.drives .sda = false
      | .clockLow bits | .clockHigh bits => ∀ x, b.transaction = some x →
        (x.phase = .receive → (s.drives .sda = true ↔ bits.length = 8 ∧ s.acknowledges = true))
        ∧ (x.phase = .address →
          (s.drives .sda = true ↔ (bitsOf (x.target ++ if x.read then 1#1 else 0#1))[bits.length]? = some false))
        ∧ ∀ v rest, x.phase = .send → x.toSend = v :: rest →
          (s.drives .sda = true ↔ (bitsOf v)[bits.length]? = some false))
    ∧ (b.lowStart ≠ none ∨ room < left → s.pass n = s.withBus { b with
        timer := b.timer + BitVec.ofNat 32 room, wire := some { half := h, since := since } })
    ∧ (b.lowStart = none → left ≤ room → match h with
      | .open | .reopenFall => ∀ x, b.transaction = some x → x.phase = .open ∨ x.phase = .reopen →
        s.pass n = ended.withTransaction { x with phase := .address, byteIndex := 0 }
      | .reopenLow => begins .reopenHigh
      | .reopenHigh => (b.sda = true → begins .reopenFall) ∧ (b.sda = false → loses)
      | .clockLow bits => begins (.clockHigh bits)
      | .clockHigh bits => s.bus.status = .owned → ∀ x, b.transaction = some x →
        let lost := s.drives .sda = false ∧ b.sda = false
          ∧ (x.phase = .receive ∧ bits.length = 8 ∨ x.phase ≠ .receive ∧ bits.length < 8)
        let accepted := match x.job with
          | .probe _ => s.pass n = ended.withTransaction { x with phase := .close }
          | .stream => if x.phase = .address ∧ x.read = true then reports .streamOpenAddressed else brings .sent
          | .sequence =>
            if x.phase = .address ∨ x.toSend.length ≤ 1 then reports (.sequenceStepEnd []) else brings .sent
          | .run _ | .fill _ | .verify _ | .recordRead _ => brings .sent
        (lost → loses)
        ∧ (¬lost → bits.length < 8 → begins (.clockLow (bits ++ [s.level .sda])))
        ∧ (¬lost → bits.length = 8 →
          (∀ v, x.phase = .receive → bits = bitsOf v →
            (x.job = .stream → reports (.streamByteReceived v))
            ∧ (x.job ≠ .stream → x.job ≠ .sequence → brings (.received v))
            ∧ ∀ steps outLength received retries current outPos abort m last, x.job = .sequence →
              s.slot.state = .running steps outLength received retries current outPos abort → 1 ≤ current →
              steps[current - 1]? = some (.receive m last) →
              if x.received.length + 1 = m then reports (.sequenceStepEnd [v]) else brings (.received v))
          ∧ (x.phase = .address ∨ x.phase = .send →
            (s.level .sda = false → accepted)
            ∧ (s.level .sda = true → x.phase = .address → begins (.closeLow (some (.address x.read))))
            ∧ (s.level .sda = true → x.phase = .send → x.job ≠ .sequence →
              begins (.closeLow (some (.byte x.byteIndex))))
            ∧ ∀ steps outLength received retries current outPos abort m check, s.level .sda = true → x.phase = .send →
              x.job = .sequence → s.slot.state = .running steps outLength received retries current outPos abort →
              1 ≤ current → steps[current - 1]? = some (.send m check) →
              if check then begins (.closeLow (some (.byte (m - x.toSend.length)))) else accepted))
      | .closeLow r => begins (.closeHigh r)
      | .closeHigh r =>
        let sends := fun t : State => (b.sda = true → s.pass n = t)
          ∧ (b.sda = false → b.status = .owned → b.clear = none →
            s.pass n = t.withBus { t.bus with sda := false, idleHigh := none, heldData := none })
        (b.clear ≠ none → b.sda = true → reports (.busClearEnd true))
        ∧ (b.clear = none → b.transaction = none → sends (ended.withBus (ended.bus.afterClose s.layout.params.rate s.now)))
        ∧ ∀ x c t, b.clear = none → b.transaction = some x → s.closeCommand x.job r = some c → exec c ended = .next t → sends t
      | .pulseLow k => begins (.pulseHigh k)
      | .pulseHigh k => (b.sda = true → begins (.closeLow none)) ∧ (b.sda = false → k < 9 → begins (.pulseLow (k + 1)))
        ∧ (b.sda = false → 9 ≤ k → reports (.busClearEnd false)))

/-- R104, R108, R120, R121: at the free deadline, and not before, the bus is FREE, or FOREIGN with a line low, or OWNED for
the grant that a bus clear was made for, whatever the lines (log entry 19); after a stretch timeout the close follows the
rise of SCL, or a bus clear with SDA low; a bus clear that succeeds sends its close, or starts the recovery watch beside it,
and one that fails at a check, with SDA low in its pulses, leaves the bus STUCK. A close of which nothing is reported runs its
half bits and its free deadline from its first (log entry 47). R123: at its check time a STUCK bus is left, cleared or watched by the
lines as they stand, and checked again in 50 ms (of a clear or a watch log entry 43); a watch that ends frees it and counts
BUS_RECOVERED. The bus timer at an awaited time is log entry 4, the held-data start of a bus that becomes FOREIGN log entry
37, and a clear during which another party holds SCL waits for its rise (log entry 39). -/
def Obligations.ClosesClearsAndChecksEnd : Prop :=
  ∀ (s : State) (freed : Bool),
    let b : Bus := s.bus
    let closed : Bus := b.afterClose s.layout.params.rate s.now
    (∀ deadline, b.freeAt = some deadline →
      (s.comesDue deadline 2000 →
        (b.status = .owned → b.transaction = none → b.wire = none ∨ b.lowStart = none →
          let idle := if b.wire = none then b.idleHigh else
            some { timer := deadline - BitVec.ofNat 32 s.layout.params.rate.freeTime, stamp := s.now }
          (b.scl = true → b.sda = true →
            exec .freeDeadline s = .next (s.withBus { b with
              timer := b.timerAt deadline 2000, status := .free, wire := none, idleHigh := idle, freeAt := none
              heldData := none, nextCheck := none, watch := none }).settle)
          ∧ (¬(b.scl = true ∧ b.sda = true) →
            exec .freeDeadline s = .next (s.withBus { b with
              timer := b.timerAt deadline 2000, status := .foreign, wire := none, freeAt := none, idleHigh := none
              heldData := if b.scl then some (b.timerAt deadline 2000) else none }).settle))
        ∧ (b.status = .owned → b.transaction = none → b.wire ≠ none → b.lowStart ≠ none →
          exec .freeDeadline s = .next s)
        ∧ (b.status = .clearing → b.transaction ≠ none →
          exec .freeDeadline s = .next (s.withBus { b with
            timer := b.timerAt deadline 2000, status := .owned, freeAt := none, idleHigh := none
            heldData := none }).settle))
      ∧ (¬s.comesDue deadline 2000 → exec .freeDeadline s = .next s))
    ∧ (b.status = .owned → b.awaitRise = true →
      exec (.sclRiseAfterTimeout true) s = .next (s.withBus { b.closing s.layout.params.rate with
        awaitRise := false }).settle
      ∧ exec (.sclRiseAfterTimeout false) s = .next (s.withBus { b with
          scl := true, sda := false, lowStart := none, idleHigh := none, awaitRise := false
          clear := some .afterTimeout }).settle)
    ∧ (b.lowStart = none →
      (b.clear = some .grant → exec (.busClearEnd true) s = .next (s.withBus { closed with
        clear := none, transaction := b.transaction }).settle)
      ∧ (b.clear = some .afterTimeout → exec (.busClearEnd true) s = .next (s.withBus { closed with
        clear := none }).settle)
      ∧ (b.clear = some .stuckCheck →
        exec (.busClearEnd true) s = .next (s.withBus { closed with clear := none, watch := some b.timer }).settle
        ∧ (s.stillHeld → exec (.busClearEnd false) s = .next (s.withBus { b with clear := none, wire := none }).settle))
      ∧ (¬s.stillHeld → exec (.busClearEnd false) s = .next s))
    ∧ (b.lowStart ≠ none → exec (.busClearEnd freed) s = .next s)
    ∧ (b.status = .stuck → ∀ next, b.nextCheck = some next → next.period ≤ next.since.elapsed s.now → b.clear = none →
      b.watch = none → exec .stuckCheck s = .next (s.withBus { b with
        nextCheck := some { since := s.now, period := 500 }
        clear := if b.scl = true ∧ b.sda = false then some .stuckCheck else none
        watch := if b.scl = true ∧ b.sda = true then some b.timer else none }).settle)
    ∧ ∀ start, b.status = .stuck → b.watch = some start →
      let awaited := start + 2000#32
      (s.comesDue awaited 2000 → exec .recoveryWatchEnd s = .next ({ s with
        events := s.events.arrive .busRecovered
        bus := { b with timer := b.timerAt awaited 2000, status := .free, wire := none, freeAt := none, heldData := none
                        nextCheck := none, watch := none } }).settle)
      ∧ (¬s.comesDue awaited 2000 → exec .recoveryWatchEnd s = .next s)

/-- R46, R57, R119, R120: a loss, on a bit of SDA that the bridge released, releases the lines and leaves the bus FOREIGN, a
stretch timeout leaves it OWNED until SCL rises; the event is counted. A commit transaction below the retry limit counts a
retry and rejoins the request list; at the limit its buffer is HELD with RETRY_EXHAUSTED and the fault logged. A write run
that has only bytes of 00h left to send loses no bit (log entry 25). -/
def Obligations.CutOffCommitsAreRetried : Prop :=
  ∀ (s : State) (c : CutOff) (p : Progress) (n : Index) (h : PageHold), s.ModeOrdered → s.canBeCut c →
    s.job = some (.run n) ∨ s.job = some (.fill n) → (s.buffer n).hold = some h →
    s.agrees p.received →
    ((c = .lost → s.hasBitToRelease ∨ s.job = some (.fill n)) →
      (h.retries < s.layout.params.retries → (s.record h.device).status = .ready →
        ∃ t, exec (c.command p) s = .next t ∧ t.cutFrom s c ∧ t.slot = s.slot
          ∧ t.table = s.tableWith n { s.buffer n with hold := some { h with retries := h.retries + 1 } } s.table.queue
          ∧ t.engine.requests = s.engine.requests ++ [n])
      ∧ (s.layout.params.retries ≤ h.retries → (s.bufferState n).uncommitted → s.undisturbed → s.events.log.length < 8 →
        ∃ t, exec (c.command p) s = .next t ∧ t.cutFrom s c ∧ t.slot = s.slot
          ∧ t.buffer n = { s.buffer n with hold := some { h with phase := .held .retryExhausted } }
          ∧ n ∉ t.engine.requests
          ∧ t.events.log = s.events.log ++ [{ number := s.events.counter, time := s.uptime, info :=
              { kind := .commitRetries, detail := c.code, device := some h.device
                window := s.windowOf h.device h.page, buffer := some n, place := some (h.page * s.pageSizeOf h) } }]))
    ∧ (∀ x, c = .lost → s.job = some (.run n) → s.bus.transaction = some x → x.phase = .send →
        (∀ v ∈ x.toSend, v = 0x00#8) → exec (.arbitrationLoss p) s = .next s)

/-- R119, R133, R134, R136: a sequence that loses the bus, in a byte of a SEND step that is not 00h, waits again below the
retry limit from its first step with its in area cleared; at the limit, and at a stretch timeout, it finishes in the SEND
step in progress with that step's byte. The progress fits the step (log entry 20). That a stretch timeout in the close of an
abort gives the step last finished and no byte is log entry 40; that one in the close after a refused byte gives the step
refused, and of a SEND step the refused byte, log entry 48. -/
def Obligations.CutOffSequencesAreRerunOrFinish : Prop :=
  (∀ (s : State) (p : Progress) (x : Transaction) (steps : List SeqStep)
    (outLength received retries current outPos n index : Nat) (check abort : Bool), s.ModeOrdered → s.canBeCut .timeout →
    s.bus.transaction = some x → x.job = .sequence → p.received = [] →
    s.slot.state = .running steps outLength received retries current outPos abort →
    let finishes := fun i : Option Nat => ∃ t, exec (.stretchTimeout p) s = .next t ∧ t.cutFrom s .timeout ∧ t.table = s.table
      ∧ t.slot.state = .finishedAs steps outLength received s.slot.inArea .timeout current i
      ∧ t.slot.inArea = s.slot.inArea ∧ t.events.count 10 = min 255 (s.events.count 10 + 1)
    (x.phase = .close → finishes none)
    ∧ (x.phase ≠ .close → s.bus.refused = some (.byte index) → stepAt steps current = some (.send n check) →
        n ≤ index + s.unsent → index < n → (p.sent = index → finishes (some index))
          ∧ (p.sent ≠ index → exec (.stretchTimeout p) s = .next s))
    ∧ ∀ reopened target read, x.phase ≠ .close → s.bus.refused = some (.address reopened) →
        stepAt steps current = some (.open target read) → finishes none)
  ∧ ∀ (s : State) (c : CutOff) (p : Progress) (steps : List SeqStep) (outLength received retries current outPos n : Nat)
    (check : Bool), s.ModeOrdered → s.canBeCut c → s.phase ≠ some .close → s.job = some .sequence →
    s.slot.state = .running steps outLength received retries current outPos false →
    steps[current - 1]? = some (.send n check) → n ≤ p.sent + s.unsent → p.sent < n → p.received = [] →
    (c = .lost → ∃ v, s.slot.outArea[outPos + p.sent]? = some v ∧ v ≠ 0x00#8) →
    (c = .lost → retries < s.layout.params.retries →
      ∃ t, exec (c.command p) s = .next t ∧ t.cutFrom s c ∧ t.table = s.table
        ∧ t.slot = { state := .waiting steps outLength 0 (retries + 1), outArea := s.slot.outArea
                     inArea := Vector.replicate 32 0#8 })
    ∧ (c = .timeout ∨ s.layout.params.retries ≤ retries →
      ∃ t, exec (c.command p) s = .next t ∧ t.cutFrom s c ∧ t.table = s.table
        ∧ t.slot.state = .finishedAs steps outLength received s.slot.inArea c.outcome current (some p.sent)
        ∧ t.slot.inArea = s.slot.inArea ∧ t.slot.outArea = s.slot.outArea
        ∧ t.events.count 10 = min 255 (s.events.count 10 + 1))

/-- R26, R58, R85, R97, R114, R122, R134, R167: SCL held low for 35 ms, and a bus clear that fails, make the bus STUCK: the event
and the fault, the check time, and the answer STUCK to the transaction and to every request: a commit transaction returns
to the head of the list, a due probe stays due, a VERIFY buffer becomes FREE and a stream CLOSED, the read that waits on the
bus is refused with no fault of its own, the record read fails, and the sequence finishes STUCK. A write that waits for a
buffer is refused too; that the entry is taken before the VERIFY buffers that it frees, which would serve the write, is log
entry 5. A transaction in progress meets its stretch timeout first (log entry 11). -/
def Obligations.HeldLinesMakeTheBusStuck : Prop :=
  ∀ s : State, s.control.mode.isReloading = false ∨ (∀ n, s.bufferState n ≠ .held) → s.reads.stream.isParked = false →
    s.events.log.length < 8 →
    (∀ start, s.bus.lowStart = some start → 350 ≤ start.elapsed s.now → s.bus.status ≠ .stuck →
      ¬(s.bus.status = .owned ∧ s.bus.transaction ≠ none) →
      ∃ t, exec .sclHeldTimeout s = .next t ∧ t.stuckFrom s .scl)
    ∧ (s.bus.clear = some .grant ∨ s.bus.clear = some .afterTimeout → s.bus.lowStart = none → s.stillHeld →
      ∃ t, exec (.busClearEnd false) s = .next t ∧ t.stuckFrom s .sda)

/-! ### Direct sequences -/

/-- R111, R127, R131, R135: a step done, the next one runs: OPEN and SEND keep the in area, SEND moves the out position,
RECEIVE places the bytes that no tick has handed over before (log entry 18); the next step has its out-area bytes to send;
with an abort pending the close is sent in place of the next step. -/
def Obligations.SequenceStepsFollowEachOther : Prop :=
  ∀ (s : State) (steps : List SeqStep) (outLength received retries current outPos : Nat) (abort : Bool) (st : SeqStep)
    (bytes : List Byte),
    s.ModeOrdered → s.slot.state = .running steps outLength received retries current outPos abort → 1 ≤ current →
    s.carries .sequence → s.phase ≠ some .close → steps[current - 1]? = some st → st ≠ .close →
    (∀ n last, st = .receive n last → s.handed.length + bytes.length = n ∧ s.agrees bytes) →
    s.reads.stream.isParked = false →
    let gained := match st with
      | .receive _ _ => bytes.length
      | _ => 0
    ∃ t, exec (.sequenceStepEnd bytes) s = .next t ∧ t.table = s.table ∧ t.engine = s.engine
      ∧ t.slot.outArea = s.slot.outArea
      ∧ (∀ i : Fin 32, t.slot.inArea.get i =
          if received ≤ i.val ∧ i.val < received + gained then bytes.getD (i.val - received) 0#8
          else s.slot.inArea.get i)
      ∧ (abort = true → t.phase = some .close ∧ t.slot.state =
          .running steps outLength (received + gained) retries current (outPos + st.sends) true)
      ∧ (abort = false → t.slot.state =
          .running steps outLength (received + gained) retries (current + 1) (outPos + st.sends) false
        ∧ ∀ next, steps[current]? = some next → t.phase = some next.phase
          ∧ ∀ x, t.bus.transaction = some x → x.received = [] ∧ x.toSend =
              (List.range next.sends).map fun i => s.slot.outArea[outPos + st.sends + i]?.getD 0#8)

/-- R132, R135, R136: a sequence finishes at its close: DONE after CLOSE, ABORTED after another step, NACKED at a refused
address byte or a refused byte of a checked SEND not acknowledged before (log entry 15), with the step and the byte;
SEQUENCE_FINISHED is counted. -/
def Obligations.SequencesFinishAtTheirClose : Prop :=
  ∀ (s : State) (steps : List SeqStep) (outLength received retries current outPos : Nat) (abort : Bool) (st : SeqStep)
    (o : SequenceClose) (outcome : SeqOutcome) (index : Option Nat),
    s.slot.state = .running steps outLength received retries current outPos abort → s.carries .sequence →
    steps[current - 1]? = some st →
    (s.phase = some .close ∧ o = .closed ∧ outcome = (if st = .close then .done else .aborted) ∧ index = none
      ∨ s.phase ≠ some .close ∧ o = .addressNack ∧ (∃ target read, st = .open target read) ∧ outcome = .nacked
        ∧ index = none
      ∨ s.phase ≠ some .close ∧ ∃ n i, o = .dataNack i ∧ st = .send n true ∧ n ≤ i + s.unsent ∧ i < n
        ∧ outcome = .nacked ∧ index = some i) →
    exec (.sequenceEnd o) s = .next ({ s with
      slot := { s.slot with state := .finishedAs steps outLength received s.slot.inArea outcome current index }
      events := s.events.arrive .sequenceFinished
      bus := s.bus.afterClose s.layout.params.rate s.now }).settle

/-- R128 to R130, R134 to R136, R178: SUBMIT SEQUENCE is refused by the mode, by a slot in use, with BAD_ARGUMENT by the
first of the seven checks that fails, or by its first OPEN of a refused target; one that passes takes the slot, its out
area and an in area of 00h, finishing STUCK at once on a STUCK bus. ABORT SEQUENCE and GET SEQUENCE RESULT act on the slot
as it stands. -/
def Obligations.SequenceCommandsActOnTheSlot : Prop :=
  ∀ (s : State) (count out : Byte) (rest : List Byte), s.control.mode ≠ .starting →
    let args := count :: out :: rest
    let inUse := s.slot.state.code = 1 ∨ s.slot.state.code = 2
    let inRange := 1 ≤ count.toNat ∧ count.toNat ≤ 16 ∧ out.toNat ≤ 32
    let refusal := fun reply : Reply => exec (.submitSequence args) s = .next (s.replied 0x0C#8 args reply [])
    (s.takesCode 0x0C#8 → rest.length = (if inRange then 2 * count.toNat + out.toNat else 0) →
      (s.control.mode ≠ .running → refusal .wrongState)
      ∧ (s.control.mode = .running → inUse → refusal .busy)
      ∧ (s.control.mode = .running → ¬inUse →
        (¬inRange → refusal .badArgument)
        ∧ (inRange → (∀ steps, ¬spells rest count.toNat steps) → refusal .badArgument)
        ∧ ∀ steps, inRange → spells rest count.toNat steps →
          (¬SequencePasses steps out.toNat → refusal .badArgument)
          ∧ (SequencePasses steps out.toNat →
            (∀ (i : Nat) target read reply, steps[i]? = some (SeqStep.open target read) →
              s.layout.refusesTarget target reply →
              (∀ (j : Nat) other way r, j < i → steps[j]? = some (SeqStep.open other way) →
                ¬s.layout.refusesTarget other r) →
              refusal reply)
            ∧ ((∀ target read r, SeqStep.open target read ∈ steps → ¬s.layout.refusesTarget target r) →
              ∃ area : Vector Byte 32,
                (∀ i : Fin 32, area.get i =
                  if i.val < out.toNat then rest.getD (2 * count.toNat + i.val) 0#8 else 0x00#8)
                ∧ let slot := fun st : SlotState =>
                  ({ state := st, outArea := area, inArea := Vector.replicate 32 0#8 } : Slot)
                exec (.submitSequence args) s = .next (if s.bus.status = .stuck then
                  ({ s with slot := slot (.finishedAs steps out.toNat 0 (Vector.replicate 32 0#8) .stuck 0 none)
                            events := s.events.arrive .sequenceFinished }).replied 0x0C#8 args .ok []
                  else ({ s with slot := slot (.waiting steps out.toNat 0 0) }).replied 0x0C#8 args .ok [])))))
    ∧ (∀ steps outLength received retries, s.takesCode 0x0E#8 →
      s.slot.state = .waiting steps outLength received retries →
      exec .abortSequence s = .next (({ s with
        slot := { s.slot with state := .finishedAs steps outLength 0 s.slot.inArea .aborted 0 none }
        events := s.events.arrive .sequenceFinished }).replied 0x0E#8 [] .ok []))
    ∧ (∀ steps outLength received retries current outPos abort, s.takesCode 0x0E#8 →
      s.slot.state = .running steps outLength received retries current outPos abort →
      exec .abortSequence s = .next (({ s with
        slot := { s.slot with state := .running steps outLength received retries current outPos true }
        }).replied 0x0E#8 [] .ok []))
    ∧ (s.takesCode 0x0E#8 → ¬inUse → exec .abortSequence s = .next (s.replied 0x0E#8 [] .wrongState []))
    ∧ (∀ steps outLength received result, s.takesCode 0x0D#8 →
      s.slot.state = .finished steps outLength received result →
      exec .getSequenceResult s = .next (s.replied 0x0D#8 [] .ok
        ([BitVec.ofNat 8 (match result.outcome with
            | .done => 0
            | .nacked => 1
            | .lost => 2
            | .timeout => 3
            | .stuck => 4
            | .aborted => 5), BitVec.ofNat 8 result.endingStep
          , (match result.byteIndex with
            | some i => BitVec.ofNat 8 i
            | none => 0xFF#8), BitVec.ofNat 8 result.received] ++ result.bytes)))
    ∧ (s.takesCode 0x0D#8 → s.slot.state.code ≠ 3 → exec .getSequenceResult s = .next (s.replied 0x0D#8 [] .wrongState []))

/-! ### The Service Port -/

/-- R146, R147, R149, R151: SCS# begins and ends a frame; an unknown code is answered UNKNOWN in every mode; in STARTING
every command but GET STATUS is answered NOT_READY, and changes nothing; until its last argument byte a command only
gathers them, and with that byte it is taken as if its bytes had come in one row; with no byte nothing has come. The bit
count stays below 8. SDO is released while SCS# is high, and carries, the most significant bit first and changing at the
falling edges of SCK, 00h until a command has been taken, then the reply status, the response, and 00h. The expected length
of SUBMIT SEQUENCE before its second argument byte is log entry 41. -/
def Obligations.FramesGatherTheirArguments : Prop :=
  (∀ s : State,
    (s.service.scs = true → s.service.frame = .idle →
      exec .frameBegin s = .next ({ s with service := { frame := .command [], scs := false, sck := false } }).settle)
    ∧ (s.service.scs = false →
      exec .frameEnd s = .next ({ s with service := { s.service with frame := .idle, scs := true } }).settle))
  ∧ (∀ (s : State) (code : Byte), s.takesCode code → code = 0#8 ∨ 0x10#8 < code →
      exec (.unknownCommand code) s = .next (s.replied code [] .unknown []))
  ∧ (∀ (s : State) (code : Byte) (args : List Byte) (i : Instr), s.takesCode code → serviceInstr code args = some i →
      (args.length < expectedLength code args →
        exec i s = .next ((s.setFrame (.arguments code args (expectedLength code args) [])).sckHigh.settle))
      ∧ (args.length = expectedLength code args → code ≠ 0x01#8 → s.control.mode = .starting →
        exec i s = .next (s.replied code args .notReady [])))
  ∧ (∀ (s : State) (bits : List Bool) (held : Nat) (code v : Byte) (before rest : List Byte) (i whole : Instr),
      let args := v :: rest
      s.service.frame = .arguments code before held bits → partOf bits v → serviceInstr code args = some i →
      ((before ++ args).length < expectedLength code (before ++ args) →
        exec i s = .next ((s.setFrame
          (.arguments code (before ++ args) (expectedLength code (before ++ args)) [])).sckHigh.settle))
      ∧ (expectedLength code [] ≠ 0 → serviceInstr code (before ++ args) = some whole →
        exec i s = exec whole (s.setFrame (.command []))))
  ∧ (∀ (s : State) (bits : List Bool) (held : Nat) (code : Byte) (before : List Byte) (i : Instr),
      s.service.frame = .arguments code before held bits → serviceInstr code [] = some i → exec i s = .next s)
  ∧ (∀ s t : State, s.service.frame.bitCount < 8 → step s = .next t → t.service.frame.bitCount < 8)
  ∧ ∀ s : State, (s.service.scs = true → s.sdo = none)
    ∧ (s.service.scs = false →
      (∀ bits, s.service.frame = .command bits → s.sdo = some false)
      ∧ (∀ code args expected bits, s.service.frame = .arguments code args expected bits → s.sdo = some false)
      ∧ ∀ code args expected bits reply response shifted, bits < 8 →
        s.service.frame = .answering code args expected bits reply response shifted →
        let bitAt := fun k : Nat => ((replyCode reply :: response).getD (k / 8) 0x00#8).getLsbD (7 - k % 8)
        (s.service.sck = false → s.sdo = some (bitAt (8 * shifted + bits)))
          ∧ (s.service.sck = true → 8 * shifted + bits = 0 → s.sdo = some false)
          ∧ ∀ k, s.service.sck = true → 8 * shifted + bits = k + 1 → s.sdo = some (bitAt k))

/-- R147, R150, R152 to R156, R175 to R177: each report is captured at its command, in its length and with its fields in
their places, and the command changes nothing but the frame; GET STATUS is answered in every mode, and a buffer number above
7 is refused with BAD_ARGUMENT. -/
def Obligations.ReportsAreSnapshots : Prop :=
  ∀ (s : State) (b : Byte),
    (s.takesCode 0x01#8 → ∃ r, exec .getStatus s = .next (s.replied 0x01#8 [] .ok r) ∧ s.isStatusReport r)
    ∧ (s.control.mode ≠ .starting →
      (s.takesCode 0x02#8 → ∃ r, exec .getEvents s = .next (s.replied 0x02#8 [] .ok r) ∧ s.events.isEventReport r)
      ∧ (s.takesCode 0x05#8 → ∃ r, exec .peekFault s = .next (s.replied 0x05#8 [] .ok r) ∧ r.length = 12
        ∧ (s.events.log = [] → ∀ k, k < 12 → r[k]? = some 0xFF#8)
        ∧ ∀ oldest rest, s.events.log = oldest :: rest → oldest.isSentAs r)
      ∧ (s.takesCode 0x10#8 → ∃ r, exec .getLayout s = .next (s.replied 0x10#8 [] .ok r) ∧ s.isLayoutReport r)
      ∧ (∀ n : Index, s.takesCode 0x07#8 → b.toNat = n.val →
        ∃ r, exec (.getBuffer [b]) s = .next (s.replied 0x07#8 [b] .ok r) ∧ s.isBufferReport n r)
      ∧ (s.takesCode 0x07#8 → 7 < b.toNat → exec (.getBuffer [b]) s = .next (s.replied 0x07#8 [b] .badArgument [])))

/-- R39, R40, R103, R151, R152: RELEASE, REISSUE and FORCE with a number above 7 are refused with BAD_ARGUMENT, and of a
buffer that does not admit them with WRONG_STATE. RELEASE frees a HELD buffer and closes up the generations of its page;
REISSUE and FORCE, of a device that is not READY, leave it SEALED at the head of the queue, and nothing else changes. -/
def Obligations.HeldBuffersAreReleasedReissuedOrForced : Prop :=
  ∀ (s : State) (b : Byte), s.ModeOrdered → s.control.mode ≠ .starting →
    let gives := fun (code : Byte) (i : Instr) (t : State) (reply : Reply) =>
      s.takesCode code → exec i s = .next (t.replied code [b] reply [])
    (7 < b.toNat →
      gives 0x09#8 (.release [b]) s .badArgument ∧ gives 0x0A#8 (.reissue [b]) s .badArgument
        ∧ gives 0x0B#8 (.force [b]) s .badArgument)
    ∧ ∀ n : Index, b.toNat = n.val →
      (s.bufferState n ≠ .held →
        gives 0x09#8 (.release [b]) s .wrongState ∧ gives 0x0A#8 (.reissue [b]) s .wrongState
          ∧ gives 0x0B#8 (.force [b]) s .wrongState)
      ∧ ∀ h cause, (s.buffer n).hold = some h → h.phase = .held cause →
        let sealed := fun forced : Bool =>
          { s.buffer n with hold := some { h with source := h.written, retries := 0, phase := .sealed forced } }
        let queued := fun forced : Bool => { s with table := s.tableWith n (sealed forced) (n :: s.table.queue) }
        (s.takesCode 0x09#8 → ∃ t, exec (.release [b]) s = .next t ∧ t.service.frame = .answering 0x09#8 [b] 1 0 .ok [] 0
          ∧ t.buffer n = { s.buffer n with hold := none }
          ∧ (∀ m g, m ≠ n → (s.buffer m).hold = some g → ∃ g', (t.buffer m).hold = some g' ∧ g'.device = g.device
              ∧ g'.page = g.page ∧ g'.written = g.written ∧ g'.generation =
                if g.device = h.device ∧ g.page = h.page ∧ h.generation < g.generation then g.generation - 1
                else g.generation)
          ∧ t.slot = s.slot ∧ t.reads.ahead = s.reads.ahead)
        ∧ (s.isSilent h.device ∨ s.control.mode = .safe →
          gives 0x0A#8 (.reissue [b]) s .wrongState ∧ gives 0x0B#8 (.force [b]) s .wrongState)
        ∧ (cause ≠ .checkMismatch → gives 0x0B#8 (.force [b]) s .wrongState)
        ∧ ((s.record h.device).status.isReady = false → s.isSilent h.device = false → s.control.mode ≠ .safe →
          (∀ m ∈ s.table.queue, s.admits m = false) → n ∉ s.table.queue →
          gives 0x0A#8 (.reissue [b]) (queued false) .ok
            ∧ (cause = .checkMismatch → gives 0x0B#8 (.force [b]) (queued true) .ok))

/-- R38: FLUSH leaves no buffer in GATHER and sets the watch, or with the queue empty and no commit in flight counts
FLUSH_DONE at once; with no device READY the GATHER buffers stand behind the queue, the oldest last write first, lower
numbers first on equal times. A watch whose conditions hold is cleared and counted, on a STUCK bus too (log entry 32). -/
def Obligations.FlushSealsInTheOrderOfWrites : Prop :=
  ∀ s : State,
    (s.ModeOrdered → s.takesCode 0x08#8 → s.control.mode ≠ .starting →
      ∃ t, exec .flush s = .next t ∧ t.service.frame = .answering 0x08#8 [] 0 0 .ok [] 0
        ∧ (∀ n, t.bufferState n ≠ .gather)
        ∧ (t.table.queue = [] ∧ (∀ n, (t.bufferState n).committing = false) →
            t.table.flushWatch = false ∧ t.events.count 11 = min 255 (s.events.count 11 + 1))
        ∧ (¬(t.table.queue = [] ∧ ∀ n, (t.bufferState n).committing = false) →
            t.table.flushWatch = true ∧ t.events.count 11 = s.events.count 11)
        ∧ (∀ n, (t.buffer n).image = (s.buffer n).image ∨ t.bufferState n = .commit)
        ∧ ((∀ d, (s.record d).status.isReady = false) → ∃ order, t.table.queue = s.table.queue ++ order
            ∧ (∀ n, n ∈ order ↔ s.bufferState n = .gather)
            ∧ order.Pairwise fun n m => s.writeAge m < s.writeAge n ∨ s.writeAge m = s.writeAge n ∧ n < m))
    ∧ (s.table.flushWatch = true → s.table.queue = [] → (∀ n, (s.bufferState n).committing = false) →
      exec .flushDone s = .next ({ s with
        table := { s.table with flushWatch := false }, events := s.events.arrive .flushDone }).settle)

/-! ### The Event Unit -/

/-- R160: ACKNOWLEDGE EVENTS reduces each count by its figure, at most to 0, and reports the counts as reduced; in
STARTING it changes nothing. Below saturation an arrival before or after it leaves the same count; at 255 the arrival is
lost before an acknowledgement of 255, and left as 1 after it. -/
def Obligations.AcknowledgementsReduceTheCounts : Prop :=
  ∀ (s : State) (figures : List Byte), s.takesCode 0x03#8 → figures.length = 16 →
    (s.control.mode = .starting →
      exec (.acknowledgeEvents figures) s = .next (s.replied 0x03#8 figures .notReady []))
    ∧ (s.control.mode ≠ .starting → ∃ e : EventUnit,
      (∀ k : Fin 16, e.count k = s.events.count k - min (figures.getD k.val 0#8).toNat (s.events.count k))
        ∧ { e with counts := s.events.counts } = s.events
        ∧ exec (.acknowledgeEvents figures) s = .next (({ s with events := e }).replied 0x03#8 figures .ok e.report)
        ∧ ∀ kind : EventKind,
          let k := kind.number
          (s.events.count k < 255 → (figures.getD k.val 0#8).toNat ≤ s.events.count k →
            ((s.events.arrive kind).acknowledge figures).count k = (e.arrive kind).count k)
          ∧ (s.events.count k = 255 → figures.getD k.val 0#8 = 255#8 →
            ((s.events.arrive kind).acknowledge figures).count k = 0 ∧ (e.arrive kind).count k = 1))

/-- R161: IRQ# is asserted exactly while an enabled kind has a nonzero count; SET EVENT MASK sets the mask. R164: PEEK
FAULT shows the oldest record or the empty one; DROP FAULT removes the oldest record when it is the one named, and is
otherwise refused with WRONG_STATE. -/
def Obligations.MaskAndLogFollowTheirCommands : Prop :=
  ∀ (s : State) (a b : Byte),
    (s.irqAsserted ↔ ∃ k : Fin 16, s.events.mask.getLsbD k.val ∧ s.events.count k ≠ 0)
    ∧ (s.takesCode 0x04#8 → s.control.mode ≠ .starting →
      exec (.setEventMask [a, b]) s
          = .next (({ s with events := { s.events with mask := a ++ b } }).replied 0x04#8 [a, b] .ok []))
    ∧ (s.takesCode 0x06#8 → s.control.mode ≠ .starting →
      (s.events.log = [] → s.events.peek = List.replicate 12 0xFF#8
        ∧ exec (.dropFault [a, b]) s = .next (s.replied 0x06#8 [a, b] .wrongState []))
      ∧ ∀ oldest rest, s.events.log = oldest :: rest → s.events.peek = oldest.bytes
        ∧ (oldest.number = a ++ b → exec (.dropFault [a, b]) s
            = .next (({ s with events := { s.events with log := rest } }).replied 0x06#8 [a, b] .ok []))
        ∧ (oldest.number ≠ a ++ b →
          exec (.dropFault [a, b]) s = .next (s.replied 0x06#8 [a, b] .wrongState [])))

/-- R163: a fault that arrives at a full log is dropped: the log and the counter stay, the overflow count and the count
of LOG_OVERFLOW rise, up to 255; the next record appended after room is made takes the number one above the last record
kept; the overflow count is in both reports, 0 after a reset, and an installation leaves it; whatever room there is, a
logged fault changes the Event Unit alone. -/
def Obligations.FullLogsDropFaults : Prop :=
  (∀ (e : EventUnit) (f : FaultInfo), e.log.length = 8 →
    (e.append f).log = e.log ∧ (e.append f).counter = e.counter
      ∧ (e.append f).overflow = min 255 (e.overflow + 1)
      ∧ (e.append f).count 15 = min 255 (e.count 15 + 1) ∧ (∀ k, k ≠ 15 → (e.append f).count k = e.count k)
      ∧ ∀ oldest rest g last, e.WellKept → e.log = oldest :: rest → e.log.getLast? = some last →
        ∃ x, (({ e.append f with log := rest } : EventUnit).append g).log = rest ++ [x] ∧ x.number = last.number + 1#16)
  ∧ (∀ s : State, s.statusReport[22]? = some (BitVec.ofNat 8 s.events.overflow)
      ∧ s.events.report[19]? = some (BitVec.ofNat 8 s.events.overflow))
  ∧ (∀ a w scl sda s t, exec (.reset a w scl sda) s = .next t → t.events.overflow = 0)
  ∧ (∀ (s : State) (l : Layout) (source : LayoutSource), (s.install l source).events.overflow = s.events.overflow)
  ∧ ∀ (s : State) (f : FaultInfo), s.logFault f = { s with events := s.events.append f }

/-! ### Start-up, reload and the power-fail flush -/

/-- R167: when its time comes the record read is presented again, or past 64 ms from the first address NACK fails; an
address NACK sets the next attempt 500 µs later, a refused memory address byte counts a retry and has the read presented
again, or at the limit fails it. R171: the outcome of an abandoned read is dropped. That the read fails past 64 ms when the
next attempt's time comes, not at the NACK before it, is log entry 26; a NACK comes only for an address or a byte not
acknowledged before (log entry 15). -/
def Obligations.RecordReadIsAttemptedAgain : Prop :=
  ∀ (s : State) (r : RecordRead) (i : Nat),
    let closed := s.withBus (s.bus.afterClose s.layout.params.rate s.now)
    let presented := fun b : Bus => { b with hostReads := b.hostReads ++ [.recordRead] }
    (s.control.recordRead = some r →
      (∀ next, r.nextAttempt = some next → next.period ≤ next.since.elapsed s.now →
        ((∀ first, r.firstNack = some first → first.elapsed next.time ≤ 640) → s.bus.status ≠ .stuck →
          exec .recordReadNextAttempt s = .next ((s.withBus (presented s.bus)).withRecordRead
            { r with nextAttempt := none }).settle)
        ∧ (∀ first, r.firstNack = some first → 640 < first.elapsed next.time →
          exec .recordReadNextAttempt s = .next (s.withRecordRead
            { r with nextAttempt := none, failed := true }).settle))
      ∧ (s.carries (.recordRead false) →
        (s.addressToCome true → exec (.recordReadAttemptNacked .address) s = .next (closed.withRecordRead
            { r with firstNack := some (r.firstNack.getD s.now)
                     nextAttempt := some { since := s.now, period := 5 } }).settle)
        ∧ (i < s.control.bootBytes → s.byteToCome i → r.retries < s.layout.params.retries →
          exec (.recordReadAttemptNacked (.data i)) s = .next ((s.withBus
            (presented (s.bus.afterClose s.layout.params.rate s.now))).withRecordRead
              { r with retries := r.retries + 1 }).settle)
        ∧ (i < s.control.bootBytes → s.byteToCome i → s.layout.params.retries ≤ r.retries →
          exec (.recordReadAttemptNacked (.data i)) s = .next (closed.withRecordRead
            { r with nextAttempt := none, failed := true }).settle)))
    ∧ (s.carries (.recordRead true) → s.addressToCome true →
      exec (.recordReadAttemptNacked .address) s = .next closed.settle)

/-- R6, R13, R47, R111, R161, R168, R170: the end of the record read installs an accepted record and counts LAYOUT_LOADED; a
rejection is logged and counted, and installs the fallback layout at start-up, or at a reload keeps the layout, its
source, the devices and the mask. The mode is then RUNNING, or at start-up with PFW# low SAFE. The bytes are those that ticks
brought and the rest (log entry 18). -/
def Obligations.RecordReadsEndInALayout : Prop :=
  ∀ (s : State) (bytes : List Byte) (x : Option Rejection), s.ModeOrdered → s.recordEndsAs bytes x →
    s.events.log.length < 8 →
    let logged := fun t : State => t.events.log = (match x with
      | none => s.events.log
      | some x => s.events.logWith x)
    let kind := fun x : Option Rejection => if x.isSome then EventKind.layoutRejected else .layoutLoaded
    (s.control.mode = .starting → ∃ t, exec (.startupRecordReadEnd bytes) s = .next t ∧ logged t ∧ t.table = s.table
      ∧ (s.carries (.recordRead false) → t.bus.transaction = none)
      ∧ t.control.recordRead = none ∧ t.control.mode = (if s.control.pfw then .running else .safe)
      ∧ t.events.count 12 = (if s.control.pfw then s.events.count 12 else min 255 (s.events.count 12 + 1))
      ∧ t.installedFrom s
          (if x.isSome then fallbackLayout s.control.bootTarget s.control.bootBytes else readLayout (s.handed ++ bytes))
          (if x.isSome then .fallback else .record) (kind x))
    ∧ (s.control.mode = .reloading .reading → ∃ t, exec (.reloadRecordReadEnd bytes) s = .next t ∧ logged t
      ∧ t.table = s.table ∧ t.control.recordRead = none ∧ t.control.mode = .running
      ∧ (x = none → t.installedFrom s (readLayout (s.handed ++ bytes)) .record .layoutLoaded)
      ∧ (x ≠ none → t.layout = s.layout ∧ t.control.source = s.control.source ∧ t.engine.devices = s.engine.devices
          ∧ t.events.mask = s.events.mask ∧ t.events.count 14 = min 255 (s.events.count 14 + 1)))

/-- R41, R88, R140, R169, R170: RELOAD LAYOUT is refused outside RUNNING, and with a buffer HELD; taken, it seals every
GATHER buffer, hands a waiting access back to the port, and stands in the first stage whose condition does not hold. A
stage whose condition comes to hold is left. -/
def Obligations.ReloadsPassThroughTheirStages : Prop :=
  ∀ s : State,
    let inUse := s.slot.state.code = 1 ∨ s.slot.state.code = 2
    let drained := s.table.queue = [] ∧ ∀ n, (s.bufferState n).working = false
    (s.takesCode 0x0F#8 → s.control.mode ≠ .starting →
      (s.control.mode ≠ .running → exec .reloadLayout s = .next (s.replied 0x0F#8 [] .wrongState []))
      ∧ (s.control.mode = .running → (∃ n, s.bufferState n = .held) →
        exec .reloadLayout s = .next (s.replied 0x0F#8 [] .heldPresent []))
      ∧ (s.control.mode = .running → (∀ n, s.bufferState n ≠ .held) → s.QueueExact →
        ∃ t, exec .reloadLayout s = .next t ∧ t.service.frame = .answering 0x0F#8 [] 0 0 .ok [] 0
          ∧ (∀ n, t.bufferState n ≠ .gather) ∧ t.layout = s.layout ∧ t.slot = s.slot ∧ t.events = s.events
          ∧ (∀ req hold, s.port = .waiting req hold → t.port = .waiting req .mode)
          ∧ (¬drained → t.control.mode = .reloading .draining)
          ∧ (drained → inUse → t.control.mode = .reloading .sequence)
          ∧ (drained → ¬inUse → s.bus.status ≠ .stuck → t.readingFrom s)))
    ∧ ((∀ n, s.bufferState n ≠ .held) → s.control.mode = .reloading .draining → drained → inUse →
      exec .reloadStageAdvance s = .next (s.withMode (.reloading .sequence) s.control.pfw).settle)
    ∧ ((∀ n, s.bufferState n ≠ .held) →
      s.control.mode = .reloading .draining ∧ drained ∨ s.control.mode = .reloading .sequence → ¬inUse →
      s.bus.status ≠ .stuck → ∃ t, exec .reloadStageAdvance s = .next t ∧ t.readingFrom s)

/-- R41, R88, R135, R140, R171 to R174: PFW# falling in RUNNING or RELOADING starts the flush: no buffer stays in GATHER
or CLEAN, the waiting access is refused, the sequence aborted, the read-ahead queue kept; with nothing in flight it ends
at once. RELOAD_ABANDONED names nothing (log entry 9). In another mode only the level changes (log entry 22). The flush ends in
SAFE, or in RUNNING when PFW# has risen; PFW# rising leaves SAFE. -/
def Obligations.PowerFailFlushEndsInSafe : Prop :=
  ∀ s : State,
    let drained := (∀ n, (s.bufferState n).working = false) ∧ s.slot.state.code ≠ 2
    (s.control.pfw = true → s.control.mode = .running ∨ s.control.mode.isReloading → s.events.log.length < 8 →
      ∃ t, exec .powerFailFlush s = .next t ∧ t.control.pfw = false
        ∧ (∀ n, t.bufferState n ≠ .gather ∧ t.bufferState n ≠ .clean) ∧ t.reads.ahead = s.reads.ahead
        ∧ t.reads.dropsAhead = s.reads.dropsAhead
        ∧ (drained → t.control.mode = .safe ∧ t.events.count 12 = min 255 (s.events.count 12 + 1))
        ∧ (¬drained → t.control.mode = .flushing ∧ t.events.count 12 = s.events.count 12)
        ∧ (∀ req hold, s.port = .waiting req hold → t.port = .answered req (refusedWith req.write))
        ∧ (∀ steps outLength received retries, s.slot.state = .waiting steps outLength received retries →
            t.slot.state = .finishedAs steps outLength 0 s.slot.inArea .aborted 0 none)
        ∧ (∀ steps outLength received retries current outPos abort,
            s.slot.state = .running steps outLength received retries current outPos abort →
            t.slot.state = .running steps outLength received retries current outPos true)
        ∧ (s.control.mode = .running → t.events.log = s.events.log)
        ∧ (s.control.mode.isReloading → t.control.recordRead = none
            ∧ t.events.log = s.events.log ++ [{ number := s.events.counter, time := s.uptime, info :=
                { kind := .reloadAbandoned, detail := 1#8, device := none, window := none, buffer := none
                  place := none } }]))
    ∧ (s.control.pfw = true → s.control.mode = .starting ∨ s.control.mode = .flushing ∨ s.control.mode = .safe →
      exec .powerFailFlush s = .next (s.withMode s.control.mode false).settle)
    ∧ (s.control.mode = .flushing → drained →
      (s.control.pfw = true → exec .flushEnd s = .next (s.withMode .running true).settle)
      ∧ (s.control.pfw = false → exec .flushEnd s = .next ({ s.withMode .safe false with
          events := s.events.arrive .safeReached }).settle))
    ∧ (s.control.pfw = false →
      exec .safeExit s = .next (s.withMode (if s.control.mode = .safe then .running else s.control.mode) true).settle)
end

