-- ==== Sys2Proof/Laws/State.lean ====
section
/-! SUPPORT. The small lemmas of the named updates: what each leaves in every block of the state, true by rfl. -/

namespace Sys2Proof.Machine

variable (s : State)

/-! ### setBuffer -/

@[simp] theorem State.setBuffer_pending (n : Index) (b : Buffer) : (s.setBuffer n b).pending = s.pending := rfl
@[simp] theorem State.setBuffer_port (n : Index) (b : Buffer) : (s.setBuffer n b).port = s.port := rfl
@[simp] theorem State.setBuffer_layout (n : Index) (b : Buffer) : (s.setBuffer n b).layout = s.layout := rfl
@[simp] theorem State.setBuffer_engine (n : Index) (b : Buffer) : (s.setBuffer n b).engine = s.engine := rfl
@[simp] theorem State.setBuffer_reads (n : Index) (b : Buffer) : (s.setBuffer n b).reads = s.reads := rfl
@[simp] theorem State.setBuffer_bus (n : Index) (b : Buffer) : (s.setBuffer n b).bus = s.bus := rfl
@[simp] theorem State.setBuffer_slot (n : Index) (b : Buffer) : (s.setBuffer n b).slot = s.slot := rfl
@[simp] theorem State.setBuffer_service (n : Index) (b : Buffer) : (s.setBuffer n b).service = s.service := rfl
@[simp] theorem State.setBuffer_events (n : Index) (b : Buffer) : (s.setBuffer n b).events = s.events := rfl
@[simp] theorem State.setBuffer_control (n : Index) (b : Buffer) : (s.setBuffer n b).control = s.control := rfl
@[simp] theorem State.setBuffer_table_queue (n : Index) (b : Buffer) : (s.setBuffer n b).table.queue = s.table.queue := rfl
@[simp] theorem State.setBuffer_table_flushWatch (n : Index) (b : Buffer) : (s.setBuffer n b).table.flushWatch = s.table.flushWatch := rfl

/-! ### updateHold -/

@[simp] theorem State.updateHold_pending (n : Index) (f : PageHold → PageHold) : (s.updateHold n f).pending = s.pending := rfl
@[simp] theorem State.updateHold_port (n : Index) (f : PageHold → PageHold) : (s.updateHold n f).port = s.port := rfl
@[simp] theorem State.updateHold_layout (n : Index) (f : PageHold → PageHold) : (s.updateHold n f).layout = s.layout := rfl
@[simp] theorem State.updateHold_engine (n : Index) (f : PageHold → PageHold) : (s.updateHold n f).engine = s.engine := rfl
@[simp] theorem State.updateHold_reads (n : Index) (f : PageHold → PageHold) : (s.updateHold n f).reads = s.reads := rfl
@[simp] theorem State.updateHold_bus (n : Index) (f : PageHold → PageHold) : (s.updateHold n f).bus = s.bus := rfl
@[simp] theorem State.updateHold_slot (n : Index) (f : PageHold → PageHold) : (s.updateHold n f).slot = s.slot := rfl
@[simp] theorem State.updateHold_service (n : Index) (f : PageHold → PageHold) : (s.updateHold n f).service = s.service := rfl
@[simp] theorem State.updateHold_events (n : Index) (f : PageHold → PageHold) : (s.updateHold n f).events = s.events := rfl
@[simp] theorem State.updateHold_control (n : Index) (f : PageHold → PageHold) : (s.updateHold n f).control = s.control := rfl
@[simp] theorem State.updateHold_table_queue (n : Index) (f : PageHold → PageHold) : (s.updateHold n f).table.queue = s.table.queue := rfl
@[simp] theorem State.updateHold_table_flushWatch (n : Index) (f : PageHold → PageHold) : (s.updateHold n f).table.flushWatch = s.table.flushWatch := rfl

/-! ### setImage -/

@[simp] theorem State.setImage_pending (n : Index) (im : Image) : (s.setImage n im).pending = s.pending := rfl
@[simp] theorem State.setImage_port (n : Index) (im : Image) : (s.setImage n im).port = s.port := rfl
@[simp] theorem State.setImage_layout (n : Index) (im : Image) : (s.setImage n im).layout = s.layout := rfl
@[simp] theorem State.setImage_engine (n : Index) (im : Image) : (s.setImage n im).engine = s.engine := rfl
@[simp] theorem State.setImage_reads (n : Index) (im : Image) : (s.setImage n im).reads = s.reads := rfl
@[simp] theorem State.setImage_bus (n : Index) (im : Image) : (s.setImage n im).bus = s.bus := rfl
@[simp] theorem State.setImage_slot (n : Index) (im : Image) : (s.setImage n im).slot = s.slot := rfl
@[simp] theorem State.setImage_service (n : Index) (im : Image) : (s.setImage n im).service = s.service := rfl
@[simp] theorem State.setImage_events (n : Index) (im : Image) : (s.setImage n im).events = s.events := rfl
@[simp] theorem State.setImage_control (n : Index) (im : Image) : (s.setImage n im).control = s.control := rfl
@[simp] theorem State.setImage_table_queue (n : Index) (im : Image) : (s.setImage n im).table.queue = s.table.queue := rfl
@[simp] theorem State.setImage_table_flushWatch (n : Index) (im : Image) : (s.setImage n im).table.flushWatch = s.table.flushWatch := rfl

/-! ### setQueue -/

@[simp] theorem State.setQueue_pending (q : List Index) : (s.setQueue q).pending = s.pending := rfl
@[simp] theorem State.setQueue_port (q : List Index) : (s.setQueue q).port = s.port := rfl
@[simp] theorem State.setQueue_layout (q : List Index) : (s.setQueue q).layout = s.layout := rfl
@[simp] theorem State.setQueue_engine (q : List Index) : (s.setQueue q).engine = s.engine := rfl
@[simp] theorem State.setQueue_reads (q : List Index) : (s.setQueue q).reads = s.reads := rfl
@[simp] theorem State.setQueue_bus (q : List Index) : (s.setQueue q).bus = s.bus := rfl
@[simp] theorem State.setQueue_slot (q : List Index) : (s.setQueue q).slot = s.slot := rfl
@[simp] theorem State.setQueue_service (q : List Index) : (s.setQueue q).service = s.service := rfl
@[simp] theorem State.setQueue_events (q : List Index) : (s.setQueue q).events = s.events := rfl
@[simp] theorem State.setQueue_control (q : List Index) : (s.setQueue q).control = s.control := rfl
@[simp] theorem State.setQueue_table_queue (q : List Index) : (s.setQueue q).table.queue = q := rfl
@[simp] theorem State.setQueue_table_buffers (q : List Index) : (s.setQueue q).table.buffers = s.table.buffers := rfl
@[simp] theorem State.setQueue_table_flushWatch (q : List Index) : (s.setQueue q).table.flushWatch = s.table.flushWatch := rfl

/-! ### setRecord -/

@[simp] theorem State.setRecord_pending (d : Index) (r : DeviceRecord) : (s.setRecord d r).pending = s.pending := rfl
@[simp] theorem State.setRecord_port (d : Index) (r : DeviceRecord) : (s.setRecord d r).port = s.port := rfl
@[simp] theorem State.setRecord_layout (d : Index) (r : DeviceRecord) : (s.setRecord d r).layout = s.layout := rfl
@[simp] theorem State.setRecord_table (d : Index) (r : DeviceRecord) : (s.setRecord d r).table = s.table := rfl
@[simp] theorem State.setRecord_reads (d : Index) (r : DeviceRecord) : (s.setRecord d r).reads = s.reads := rfl
@[simp] theorem State.setRecord_bus (d : Index) (r : DeviceRecord) : (s.setRecord d r).bus = s.bus := rfl
@[simp] theorem State.setRecord_slot (d : Index) (r : DeviceRecord) : (s.setRecord d r).slot = s.slot := rfl
@[simp] theorem State.setRecord_service (d : Index) (r : DeviceRecord) : (s.setRecord d r).service = s.service := rfl
@[simp] theorem State.setRecord_events (d : Index) (r : DeviceRecord) : (s.setRecord d r).events = s.events := rfl
@[simp] theorem State.setRecord_control (d : Index) (r : DeviceRecord) : (s.setRecord d r).control = s.control := rfl
@[simp] theorem State.setRecord_engine_requests (d : Index) (r : DeviceRecord) : (s.setRecord d r).engine.requests = s.engine.requests := rfl

/-! ### setStatus -/

@[simp] theorem State.setStatus_pending (d : Index) (st : DeviceStatus) : (s.setStatus d st).pending = s.pending := rfl
@[simp] theorem State.setStatus_port (d : Index) (st : DeviceStatus) : (s.setStatus d st).port = s.port := rfl
@[simp] theorem State.setStatus_layout (d : Index) (st : DeviceStatus) : (s.setStatus d st).layout = s.layout := rfl
@[simp] theorem State.setStatus_table (d : Index) (st : DeviceStatus) : (s.setStatus d st).table = s.table := rfl
@[simp] theorem State.setStatus_reads (d : Index) (st : DeviceStatus) : (s.setStatus d st).reads = s.reads := rfl
@[simp] theorem State.setStatus_bus (d : Index) (st : DeviceStatus) : (s.setStatus d st).bus = s.bus := rfl
@[simp] theorem State.setStatus_slot (d : Index) (st : DeviceStatus) : (s.setStatus d st).slot = s.slot := rfl
@[simp] theorem State.setStatus_service (d : Index) (st : DeviceStatus) : (s.setStatus d st).service = s.service := rfl
@[simp] theorem State.setStatus_events (d : Index) (st : DeviceStatus) : (s.setStatus d st).events = s.events := rfl
@[simp] theorem State.setStatus_control (d : Index) (st : DeviceStatus) : (s.setStatus d st).control = s.control := rfl
@[simp] theorem State.setStatus_engine_requests (d : Index) (st : DeviceStatus) : (s.setStatus d st).engine.requests = s.engine.requests := rfl

/-! ### setNacks -/

@[simp] theorem State.setNacks_pending (d : Index) (k : Nat) : (s.setNacks d k).pending = s.pending := rfl
@[simp] theorem State.setNacks_port (d : Index) (k : Nat) : (s.setNacks d k).port = s.port := rfl
@[simp] theorem State.setNacks_layout (d : Index) (k : Nat) : (s.setNacks d k).layout = s.layout := rfl
@[simp] theorem State.setNacks_table (d : Index) (k : Nat) : (s.setNacks d k).table = s.table := rfl
@[simp] theorem State.setNacks_reads (d : Index) (k : Nat) : (s.setNacks d k).reads = s.reads := rfl
@[simp] theorem State.setNacks_bus (d : Index) (k : Nat) : (s.setNacks d k).bus = s.bus := rfl
@[simp] theorem State.setNacks_slot (d : Index) (k : Nat) : (s.setNacks d k).slot = s.slot := rfl
@[simp] theorem State.setNacks_service (d : Index) (k : Nat) : (s.setNacks d k).service = s.service := rfl
@[simp] theorem State.setNacks_events (d : Index) (k : Nat) : (s.setNacks d k).events = s.events := rfl
@[simp] theorem State.setNacks_control (d : Index) (k : Nat) : (s.setNacks d k).control = s.control := rfl
@[simp] theorem State.setNacks_engine_requests (d : Index) (k : Nat) : (s.setNacks d k).engine.requests = s.engine.requests := rfl

/-! ### setRequests -/

@[simp] theorem State.setRequests_pending (rs : List Index) : (s.setRequests rs).pending = s.pending := rfl
@[simp] theorem State.setRequests_port (rs : List Index) : (s.setRequests rs).port = s.port := rfl
@[simp] theorem State.setRequests_layout (rs : List Index) : (s.setRequests rs).layout = s.layout := rfl
@[simp] theorem State.setRequests_table (rs : List Index) : (s.setRequests rs).table = s.table := rfl
@[simp] theorem State.setRequests_reads (rs : List Index) : (s.setRequests rs).reads = s.reads := rfl
@[simp] theorem State.setRequests_bus (rs : List Index) : (s.setRequests rs).bus = s.bus := rfl
@[simp] theorem State.setRequests_slot (rs : List Index) : (s.setRequests rs).slot = s.slot := rfl
@[simp] theorem State.setRequests_service (rs : List Index) : (s.setRequests rs).service = s.service := rfl
@[simp] theorem State.setRequests_events (rs : List Index) : (s.setRequests rs).events = s.events := rfl
@[simp] theorem State.setRequests_control (rs : List Index) : (s.setRequests rs).control = s.control := rfl
@[simp] theorem State.setRequests_engine_requests (rs : List Index) : (s.setRequests rs).engine.requests = rs := rfl
@[simp] theorem State.setRequests_engine_devices (rs : List Index) : (s.setRequests rs).engine.devices = s.engine.devices := rfl

/-! ### setStream -/

@[simp] theorem State.setStream_pending (st : Stream) : (s.setStream st).pending = s.pending := rfl
@[simp] theorem State.setStream_port (st : Stream) : (s.setStream st).port = s.port := rfl
@[simp] theorem State.setStream_layout (st : Stream) : (s.setStream st).layout = s.layout := rfl
@[simp] theorem State.setStream_table (st : Stream) : (s.setStream st).table = s.table := rfl
@[simp] theorem State.setStream_engine (st : Stream) : (s.setStream st).engine = s.engine := rfl
@[simp] theorem State.setStream_bus (st : Stream) : (s.setStream st).bus = s.bus := rfl
@[simp] theorem State.setStream_slot (st : Stream) : (s.setStream st).slot = s.slot := rfl
@[simp] theorem State.setStream_service (st : Stream) : (s.setStream st).service = s.service := rfl
@[simp] theorem State.setStream_events (st : Stream) : (s.setStream st).events = s.events := rfl
@[simp] theorem State.setStream_control (st : Stream) : (s.setStream st).control = s.control := rfl
@[simp] theorem State.setStream_reads_stream (st : Stream) : (s.setStream st).reads.stream = st := rfl
@[simp] theorem State.setStream_reads_ahead (st : Stream) : (s.setStream st).reads.ahead = s.reads.ahead := rfl

/-! ### setAhead -/

@[simp] theorem State.setAhead_pending (a : ReadAhead) : (s.setAhead a).pending = s.pending := rfl
@[simp] theorem State.setAhead_port (a : ReadAhead) : (s.setAhead a).port = s.port := rfl
@[simp] theorem State.setAhead_layout (a : ReadAhead) : (s.setAhead a).layout = s.layout := rfl
@[simp] theorem State.setAhead_table (a : ReadAhead) : (s.setAhead a).table = s.table := rfl
@[simp] theorem State.setAhead_engine (a : ReadAhead) : (s.setAhead a).engine = s.engine := rfl
@[simp] theorem State.setAhead_bus (a : ReadAhead) : (s.setAhead a).bus = s.bus := rfl
@[simp] theorem State.setAhead_slot (a : ReadAhead) : (s.setAhead a).slot = s.slot := rfl
@[simp] theorem State.setAhead_service (a : ReadAhead) : (s.setAhead a).service = s.service := rfl
@[simp] theorem State.setAhead_events (a : ReadAhead) : (s.setAhead a).events = s.events := rfl
@[simp] theorem State.setAhead_control (a : ReadAhead) : (s.setAhead a).control = s.control := rfl
@[simp] theorem State.setAhead_reads_ahead (a : ReadAhead) : (s.setAhead a).reads.ahead = a := rfl
@[simp] theorem State.setAhead_reads_stream (a : ReadAhead) : (s.setAhead a).reads.stream = s.reads.stream := rfl

/-! ### setBus -/

@[simp] theorem State.setBus_pending (f : Bus → Bus) : (s.setBus f).pending = s.pending := rfl
@[simp] theorem State.setBus_port (f : Bus → Bus) : (s.setBus f).port = s.port := rfl
@[simp] theorem State.setBus_layout (f : Bus → Bus) : (s.setBus f).layout = s.layout := rfl
@[simp] theorem State.setBus_table (f : Bus → Bus) : (s.setBus f).table = s.table := rfl
@[simp] theorem State.setBus_engine (f : Bus → Bus) : (s.setBus f).engine = s.engine := rfl
@[simp] theorem State.setBus_reads (f : Bus → Bus) : (s.setBus f).reads = s.reads := rfl
@[simp] theorem State.setBus_slot (f : Bus → Bus) : (s.setBus f).slot = s.slot := rfl
@[simp] theorem State.setBus_service (f : Bus → Bus) : (s.setBus f).service = s.service := rfl
@[simp] theorem State.setBus_events (f : Bus → Bus) : (s.setBus f).events = s.events := rfl
@[simp] theorem State.setBus_control (f : Bus → Bus) : (s.setBus f).control = s.control := rfl
@[simp] theorem State.setBus_bus (f : Bus → Bus) : (s.setBus f).bus = f s.bus := rfl

/-! ### setSlot -/

@[simp] theorem State.setSlot_pending (st : SlotState) : (s.setSlot st).pending = s.pending := rfl
@[simp] theorem State.setSlot_port (st : SlotState) : (s.setSlot st).port = s.port := rfl
@[simp] theorem State.setSlot_layout (st : SlotState) : (s.setSlot st).layout = s.layout := rfl
@[simp] theorem State.setSlot_table (st : SlotState) : (s.setSlot st).table = s.table := rfl
@[simp] theorem State.setSlot_engine (st : SlotState) : (s.setSlot st).engine = s.engine := rfl
@[simp] theorem State.setSlot_reads (st : SlotState) : (s.setSlot st).reads = s.reads := rfl
@[simp] theorem State.setSlot_bus (st : SlotState) : (s.setSlot st).bus = s.bus := rfl
@[simp] theorem State.setSlot_service (st : SlotState) : (s.setSlot st).service = s.service := rfl
@[simp] theorem State.setSlot_events (st : SlotState) : (s.setSlot st).events = s.events := rfl
@[simp] theorem State.setSlot_control (st : SlotState) : (s.setSlot st).control = s.control := rfl
@[simp] theorem State.setSlot_slot_state (st : SlotState) : (s.setSlot st).slot.state = st := rfl
@[simp] theorem State.setSlot_slot_outArea (st : SlotState) : (s.setSlot st).slot.outArea = s.slot.outArea := rfl
@[simp] theorem State.setSlot_slot_inArea (st : SlotState) : (s.setSlot st).slot.inArea = s.slot.inArea := rfl

/-! ### fillInArea -/

@[simp] theorem State.fillInArea_pending (k : Nat) (bs : List Byte) : (s.fillInArea k bs).pending = s.pending := by simp only [State.fillInArea]
@[simp] theorem State.fillInArea_port (k : Nat) (bs : List Byte) : (s.fillInArea k bs).port = s.port := by simp only [State.fillInArea]
@[simp] theorem State.fillInArea_layout (k : Nat) (bs : List Byte) : (s.fillInArea k bs).layout = s.layout := by simp only [State.fillInArea]
@[simp] theorem State.fillInArea_table (k : Nat) (bs : List Byte) : (s.fillInArea k bs).table = s.table := by simp only [State.fillInArea]
@[simp] theorem State.fillInArea_engine (k : Nat) (bs : List Byte) : (s.fillInArea k bs).engine = s.engine := by simp only [State.fillInArea]
@[simp] theorem State.fillInArea_reads (k : Nat) (bs : List Byte) : (s.fillInArea k bs).reads = s.reads := by simp only [State.fillInArea]
@[simp] theorem State.fillInArea_bus (k : Nat) (bs : List Byte) : (s.fillInArea k bs).bus = s.bus := by simp only [State.fillInArea]
@[simp] theorem State.fillInArea_service (k : Nat) (bs : List Byte) : (s.fillInArea k bs).service = s.service := by simp only [State.fillInArea]
@[simp] theorem State.fillInArea_events (k : Nat) (bs : List Byte) : (s.fillInArea k bs).events = s.events := by simp only [State.fillInArea]
@[simp] theorem State.fillInArea_control (k : Nat) (bs : List Byte) : (s.fillInArea k bs).control = s.control := by simp only [State.fillInArea]
@[simp] theorem State.fillInArea_slot_state (k : Nat) (bs : List Byte) : (s.fillInArea k bs).slot.state = s.slot.state := by simp only [State.fillInArea]
@[simp] theorem State.fillInArea_slot_outArea (k : Nat) (bs : List Byte) : (s.fillInArea k bs).slot.outArea = s.slot.outArea := by simp only [State.fillInArea]
@[simp] theorem State.fillInArea_slot_inArea (k : Nat) (bs : List Byte) : (s.fillInArea k bs).slot.inArea = placeIn s.slot.inArea k bs := by simp only [State.fillInArea]

/-! ### clearInArea -/

@[simp] theorem State.clearInArea_pending : (s.clearInArea).pending = s.pending := rfl
@[simp] theorem State.clearInArea_port : (s.clearInArea).port = s.port := rfl
@[simp] theorem State.clearInArea_layout : (s.clearInArea).layout = s.layout := rfl
@[simp] theorem State.clearInArea_table : (s.clearInArea).table = s.table := rfl
@[simp] theorem State.clearInArea_engine : (s.clearInArea).engine = s.engine := rfl
@[simp] theorem State.clearInArea_reads : (s.clearInArea).reads = s.reads := rfl
@[simp] theorem State.clearInArea_bus : (s.clearInArea).bus = s.bus := rfl
@[simp] theorem State.clearInArea_service : (s.clearInArea).service = s.service := rfl
@[simp] theorem State.clearInArea_events : (s.clearInArea).events = s.events := rfl
@[simp] theorem State.clearInArea_control : (s.clearInArea).control = s.control := rfl
@[simp] theorem State.clearInArea_slot_state : (s.clearInArea).slot.state = s.slot.state := rfl
@[simp] theorem State.clearInArea_slot_outArea : (s.clearInArea).slot.outArea = s.slot.outArea := rfl
@[simp] theorem State.clearInArea_slot_inArea : (s.clearInArea).slot.inArea = Vector.replicate 32 0#8 := rfl

/-! ### setReads -/

@[simp] theorem State.setReads_pending (r : ReadPath) : (s.setReads r).pending = s.pending := rfl
@[simp] theorem State.setReads_port (r : ReadPath) : (s.setReads r).port = s.port := rfl
@[simp] theorem State.setReads_layout (r : ReadPath) : (s.setReads r).layout = s.layout := rfl
@[simp] theorem State.setReads_table (r : ReadPath) : (s.setReads r).table = s.table := rfl
@[simp] theorem State.setReads_engine (r : ReadPath) : (s.setReads r).engine = s.engine := rfl
@[simp] theorem State.setReads_bus (r : ReadPath) : (s.setReads r).bus = s.bus := rfl
@[simp] theorem State.setReads_slot (r : ReadPath) : (s.setReads r).slot = s.slot := rfl
@[simp] theorem State.setReads_service (r : ReadPath) : (s.setReads r).service = s.service := rfl
@[simp] theorem State.setReads_events (r : ReadPath) : (s.setReads r).events = s.events := rfl
@[simp] theorem State.setReads_control (r : ReadPath) : (s.setReads r).control = s.control := rfl
@[simp] theorem State.setReads_reads (r : ReadPath) : (s.setReads r).reads = r := rfl

/-! ### setFrame -/

@[simp] theorem State.setFrame_pending (f : Frame) : (s.setFrame f).pending = s.pending := rfl
@[simp] theorem State.setFrame_port (f : Frame) : (s.setFrame f).port = s.port := rfl
@[simp] theorem State.setFrame_layout (f : Frame) : (s.setFrame f).layout = s.layout := rfl
@[simp] theorem State.setFrame_table (f : Frame) : (s.setFrame f).table = s.table := rfl
@[simp] theorem State.setFrame_engine (f : Frame) : (s.setFrame f).engine = s.engine := rfl
@[simp] theorem State.setFrame_reads (f : Frame) : (s.setFrame f).reads = s.reads := rfl
@[simp] theorem State.setFrame_bus (f : Frame) : (s.setFrame f).bus = s.bus := rfl
@[simp] theorem State.setFrame_slot (f : Frame) : (s.setFrame f).slot = s.slot := rfl
@[simp] theorem State.setFrame_events (f : Frame) : (s.setFrame f).events = s.events := rfl
@[simp] theorem State.setFrame_control (f : Frame) : (s.setFrame f).control = s.control := rfl
@[simp] theorem State.setFrame_service_frame (f : Frame) : (s.setFrame f).service.frame = f := rfl
@[simp] theorem State.setFrame_service_scs (f : Frame) : (s.setFrame f).service.scs = s.service.scs := rfl
@[simp] theorem State.setFrame_service_sck (f : Frame) : (s.setFrame f).service.sck = s.service.sck := rfl

/-! ### sckHigh -/

@[simp] theorem State.sckHigh_pending : (s.sckHigh).pending = s.pending := rfl
@[simp] theorem State.sckHigh_port : (s.sckHigh).port = s.port := rfl
@[simp] theorem State.sckHigh_layout : (s.sckHigh).layout = s.layout := rfl
@[simp] theorem State.sckHigh_table : (s.sckHigh).table = s.table := rfl
@[simp] theorem State.sckHigh_engine : (s.sckHigh).engine = s.engine := rfl
@[simp] theorem State.sckHigh_reads : (s.sckHigh).reads = s.reads := rfl
@[simp] theorem State.sckHigh_bus : (s.sckHigh).bus = s.bus := rfl
@[simp] theorem State.sckHigh_slot : (s.sckHigh).slot = s.slot := rfl
@[simp] theorem State.sckHigh_events : (s.sckHigh).events = s.events := rfl
@[simp] theorem State.sckHigh_control : (s.sckHigh).control = s.control := rfl
@[simp] theorem State.sckHigh_service_frame : (s.sckHigh).service.frame = s.service.frame := rfl
@[simp] theorem State.sckHigh_service_scs : (s.sckHigh).service.scs = s.service.scs := rfl
@[simp] theorem State.sckHigh_service_sck : (s.sckHigh).service.sck = true := rfl

/-! ### countEvent -/

@[simp] theorem State.countEvent_pending (k : EventKind) : (s.countEvent k).pending = s.pending := rfl
@[simp] theorem State.countEvent_port (k : EventKind) : (s.countEvent k).port = s.port := rfl
@[simp] theorem State.countEvent_layout (k : EventKind) : (s.countEvent k).layout = s.layout := rfl
@[simp] theorem State.countEvent_table (k : EventKind) : (s.countEvent k).table = s.table := rfl
@[simp] theorem State.countEvent_engine (k : EventKind) : (s.countEvent k).engine = s.engine := rfl
@[simp] theorem State.countEvent_reads (k : EventKind) : (s.countEvent k).reads = s.reads := rfl
@[simp] theorem State.countEvent_bus (k : EventKind) : (s.countEvent k).bus = s.bus := rfl
@[simp] theorem State.countEvent_slot (k : EventKind) : (s.countEvent k).slot = s.slot := rfl
@[simp] theorem State.countEvent_service (k : EventKind) : (s.countEvent k).service = s.service := rfl
@[simp] theorem State.countEvent_control (k : EventKind) : (s.countEvent k).control = s.control := rfl
@[simp] theorem State.countEvent_events (k : EventKind) : (s.countEvent k).events = s.events.arrive k := rfl

/-! ### logFault -/

@[simp] theorem State.logFault_pending (f : FaultInfo) : (s.logFault f).pending = s.pending := rfl
@[simp] theorem State.logFault_port (f : FaultInfo) : (s.logFault f).port = s.port := rfl
@[simp] theorem State.logFault_layout (f : FaultInfo) : (s.logFault f).layout = s.layout := rfl
@[simp] theorem State.logFault_table (f : FaultInfo) : (s.logFault f).table = s.table := rfl
@[simp] theorem State.logFault_engine (f : FaultInfo) : (s.logFault f).engine = s.engine := rfl
@[simp] theorem State.logFault_reads (f : FaultInfo) : (s.logFault f).reads = s.reads := rfl
@[simp] theorem State.logFault_bus (f : FaultInfo) : (s.logFault f).bus = s.bus := rfl
@[simp] theorem State.logFault_slot (f : FaultInfo) : (s.logFault f).slot = s.slot := rfl
@[simp] theorem State.logFault_service (f : FaultInfo) : (s.logFault f).service = s.service := rfl
@[simp] theorem State.logFault_control (f : FaultInfo) : (s.logFault f).control = s.control := rfl
@[simp] theorem State.logFault_events (f : FaultInfo) : (s.logFault f).events = s.events.append f := rfl

/-! ### setMode -/

@[simp] theorem State.setMode_pending (m : Mode) : (s.setMode m).pending = s.pending := rfl
@[simp] theorem State.setMode_port (m : Mode) : (s.setMode m).port = s.port := rfl
@[simp] theorem State.setMode_layout (m : Mode) : (s.setMode m).layout = s.layout := rfl
@[simp] theorem State.setMode_table (m : Mode) : (s.setMode m).table = s.table := rfl
@[simp] theorem State.setMode_engine (m : Mode) : (s.setMode m).engine = s.engine := rfl
@[simp] theorem State.setMode_reads (m : Mode) : (s.setMode m).reads = s.reads := rfl
@[simp] theorem State.setMode_bus (m : Mode) : (s.setMode m).bus = s.bus := rfl
@[simp] theorem State.setMode_slot (m : Mode) : (s.setMode m).slot = s.slot := rfl
@[simp] theorem State.setMode_service (m : Mode) : (s.setMode m).service = s.service := rfl
@[simp] theorem State.setMode_events (m : Mode) : (s.setMode m).events = s.events := rfl
@[simp] theorem State.setMode_control_mode (m : Mode) : (s.setMode m).control.mode = m := rfl
@[simp] theorem State.setMode_control_source (m : Mode) : (s.setMode m).control.source = s.control.source := rfl
@[simp] theorem State.setMode_control_bootTarget (m : Mode) : (s.setMode m).control.bootTarget = s.control.bootTarget := rfl
@[simp] theorem State.setMode_control_bootBytes (m : Mode) : (s.setMode m).control.bootBytes = s.control.bootBytes := rfl
@[simp] theorem State.setMode_control_recordRead (m : Mode) : (s.setMode m).control.recordRead = s.control.recordRead := rfl
@[simp] theorem State.setMode_control_pfw (m : Mode) : (s.setMode m).control.pfw = s.control.pfw := rfl

/-! ### setRecordRead -/

@[simp] theorem State.setRecordRead_pending (r : Option RecordRead) : (s.setRecordRead r).pending = s.pending := rfl
@[simp] theorem State.setRecordRead_port (r : Option RecordRead) : (s.setRecordRead r).port = s.port := rfl
@[simp] theorem State.setRecordRead_layout (r : Option RecordRead) : (s.setRecordRead r).layout = s.layout := rfl
@[simp] theorem State.setRecordRead_table (r : Option RecordRead) : (s.setRecordRead r).table = s.table := rfl
@[simp] theorem State.setRecordRead_engine (r : Option RecordRead) : (s.setRecordRead r).engine = s.engine := rfl
@[simp] theorem State.setRecordRead_reads (r : Option RecordRead) : (s.setRecordRead r).reads = s.reads := rfl
@[simp] theorem State.setRecordRead_bus (r : Option RecordRead) : (s.setRecordRead r).bus = s.bus := rfl
@[simp] theorem State.setRecordRead_slot (r : Option RecordRead) : (s.setRecordRead r).slot = s.slot := rfl
@[simp] theorem State.setRecordRead_service (r : Option RecordRead) : (s.setRecordRead r).service = s.service := rfl
@[simp] theorem State.setRecordRead_events (r : Option RecordRead) : (s.setRecordRead r).events = s.events := rfl
@[simp] theorem State.setRecordRead_control_recordRead (r : Option RecordRead) : (s.setRecordRead r).control.recordRead = r := rfl
@[simp] theorem State.setRecordRead_control_mode (r : Option RecordRead) : (s.setRecordRead r).control.mode = s.control.mode := rfl
@[simp] theorem State.setRecordRead_control_source (r : Option RecordRead) : (s.setRecordRead r).control.source = s.control.source := rfl
@[simp] theorem State.setRecordRead_control_bootTarget (r : Option RecordRead) : (s.setRecordRead r).control.bootTarget = s.control.bootTarget := rfl
@[simp] theorem State.setRecordRead_control_bootBytes (r : Option RecordRead) : (s.setRecordRead r).control.bootBytes = s.control.bootBytes := rfl
@[simp] theorem State.setRecordRead_control_pfw (r : Option RecordRead) : (s.setRecordRead r).control.pfw = s.control.pfw := rfl

/-! ### setPfw -/

@[simp] theorem State.setPfw_pending (level : Bool) : (s.setPfw level).pending = s.pending := rfl
@[simp] theorem State.setPfw_port (level : Bool) : (s.setPfw level).port = s.port := rfl
@[simp] theorem State.setPfw_layout (level : Bool) : (s.setPfw level).layout = s.layout := rfl
@[simp] theorem State.setPfw_table (level : Bool) : (s.setPfw level).table = s.table := rfl
@[simp] theorem State.setPfw_engine (level : Bool) : (s.setPfw level).engine = s.engine := rfl
@[simp] theorem State.setPfw_reads (level : Bool) : (s.setPfw level).reads = s.reads := rfl
@[simp] theorem State.setPfw_bus (level : Bool) : (s.setPfw level).bus = s.bus := rfl
@[simp] theorem State.setPfw_slot (level : Bool) : (s.setPfw level).slot = s.slot := rfl
@[simp] theorem State.setPfw_service (level : Bool) : (s.setPfw level).service = s.service := rfl
@[simp] theorem State.setPfw_events (level : Bool) : (s.setPfw level).events = s.events := rfl
@[simp] theorem State.setPfw_control_pfw (level : Bool) : (s.setPfw level).control.pfw = level := rfl
@[simp] theorem State.setPfw_control_mode (level : Bool) : (s.setPfw level).control.mode = s.control.mode := rfl
@[simp] theorem State.setPfw_control_source (level : Bool) : (s.setPfw level).control.source = s.control.source := rfl
@[simp] theorem State.setPfw_control_bootTarget (level : Bool) : (s.setPfw level).control.bootTarget = s.control.bootTarget := rfl
@[simp] theorem State.setPfw_control_bootBytes (level : Bool) : (s.setPfw level).control.bootBytes = s.control.bootBytes := rfl
@[simp] theorem State.setPfw_control_recordRead (level : Bool) : (s.setPfw level).control.recordRead = s.control.recordRead := rfl

/-! ### present -/

@[simp] theorem State.present_pending (q : HostReadRequest) : (s.present q).pending = s.pending := rfl
@[simp] theorem State.present_port (q : HostReadRequest) : (s.present q).port = s.port := rfl
@[simp] theorem State.present_layout (q : HostReadRequest) : (s.present q).layout = s.layout := rfl
@[simp] theorem State.present_table (q : HostReadRequest) : (s.present q).table = s.table := rfl
@[simp] theorem State.present_engine (q : HostReadRequest) : (s.present q).engine = s.engine := rfl
@[simp] theorem State.present_reads (q : HostReadRequest) : (s.present q).reads = s.reads := rfl
@[simp] theorem State.present_slot (q : HostReadRequest) : (s.present q).slot = s.slot := rfl
@[simp] theorem State.present_service (q : HostReadRequest) : (s.present q).service = s.service := rfl
@[simp] theorem State.present_events (q : HostReadRequest) : (s.present q).events = s.events := rfl
@[simp] theorem State.present_control (q : HostReadRequest) : (s.present q).control = s.control := rfl
@[simp] theorem State.present_bus_status (q : HostReadRequest) : (s.present q).bus.status = s.bus.status := rfl
@[simp] theorem State.present_bus_scl (q : HostReadRequest) : (s.present q).bus.scl = s.bus.scl := rfl
@[simp] theorem State.present_bus_sda (q : HostReadRequest) : (s.present q).bus.sda = s.bus.sda := rfl
@[simp] theorem State.present_bus_timer (q : HostReadRequest) : (s.present q).bus.timer = s.bus.timer := rfl
@[simp] theorem State.present_bus_lowStart (q : HostReadRequest) : (s.present q).bus.lowStart = s.bus.lowStart := rfl
@[simp] theorem State.present_bus_idleHigh (q : HostReadRequest) : (s.present q).bus.idleHigh = s.bus.idleHigh := rfl
@[simp] theorem State.present_bus_heldData (q : HostReadRequest) : (s.present q).bus.heldData = s.bus.heldData := rfl
@[simp] theorem State.present_bus_freeAt (q : HostReadRequest) : (s.present q).bus.freeAt = s.bus.freeAt := rfl
@[simp] theorem State.present_bus_nextCheck (q : HostReadRequest) : (s.present q).bus.nextCheck = s.bus.nextCheck :=
    rfl
@[simp] theorem State.present_bus_transaction (q : HostReadRequest) :
    (s.present q).bus.transaction = s.bus.transaction := rfl
@[simp] theorem State.present_bus_wire (q : HostReadRequest) : (s.present q).bus.wire = s.bus.wire := rfl
@[simp] theorem State.present_bus_awaitRise (q : HostReadRequest) : (s.present q).bus.awaitRise = s.bus.awaitRise :=
    rfl
@[simp] theorem State.present_bus_clear (q : HostReadRequest) : (s.present q).bus.clear = s.bus.clear := rfl
@[simp] theorem State.present_bus_watch (q : HostReadRequest) : (s.present q).bus.watch = s.bus.watch := rfl
@[simp] theorem State.present_bus_hostReads (q : HostReadRequest) :
    (s.present q).bus.hostReads = s.bus.hostReads ++ [q] := rfl
@[simp] theorem State.present_bus_lastGranted (q : HostReadRequest) :
    (s.present q).bus.lastGranted = s.bus.lastGranted := rfl
@[simp] theorem State.present_bus_passCommit (q : HostReadRequest) : (s.present q).bus.passCommit = s.bus.passCommit :=
    rfl
@[simp] theorem State.present_bus_passDirect (q : HostReadRequest) : (s.present q).bus.passDirect = s.bus.passDirect :=
    rfl

/-! ### withdraw -/

@[simp] theorem State.withdraw_pending (q : HostReadRequest → Bool) : (s.withdraw q).pending = s.pending := rfl
@[simp] theorem State.withdraw_port (q : HostReadRequest → Bool) : (s.withdraw q).port = s.port := rfl
@[simp] theorem State.withdraw_layout (q : HostReadRequest → Bool) : (s.withdraw q).layout = s.layout := rfl
@[simp] theorem State.withdraw_table (q : HostReadRequest → Bool) : (s.withdraw q).table = s.table := rfl
@[simp] theorem State.withdraw_engine (q : HostReadRequest → Bool) : (s.withdraw q).engine = s.engine := rfl
@[simp] theorem State.withdraw_reads (q : HostReadRequest → Bool) : (s.withdraw q).reads = s.reads := rfl
@[simp] theorem State.withdraw_slot (q : HostReadRequest → Bool) : (s.withdraw q).slot = s.slot := rfl
@[simp] theorem State.withdraw_service (q : HostReadRequest → Bool) : (s.withdraw q).service = s.service := rfl
@[simp] theorem State.withdraw_events (q : HostReadRequest → Bool) : (s.withdraw q).events = s.events := rfl
@[simp] theorem State.withdraw_control (q : HostReadRequest → Bool) : (s.withdraw q).control = s.control := rfl
@[simp] theorem State.withdraw_bus_status (q : HostReadRequest → Bool) : (s.withdraw q).bus.status = s.bus.status :=
    rfl
@[simp] theorem State.withdraw_bus_scl (q : HostReadRequest → Bool) : (s.withdraw q).bus.scl = s.bus.scl := rfl
@[simp] theorem State.withdraw_bus_sda (q : HostReadRequest → Bool) : (s.withdraw q).bus.sda = s.bus.sda := rfl
@[simp] theorem State.withdraw_bus_timer (q : HostReadRequest → Bool) : (s.withdraw q).bus.timer = s.bus.timer := rfl
@[simp] theorem State.withdraw_bus_lowStart (q : HostReadRequest → Bool) :
    (s.withdraw q).bus.lowStart = s.bus.lowStart := rfl
@[simp] theorem State.withdraw_bus_idleHigh (q : HostReadRequest → Bool) :
    (s.withdraw q).bus.idleHigh = s.bus.idleHigh := rfl
@[simp] theorem State.withdraw_bus_heldData (q : HostReadRequest → Bool) :
    (s.withdraw q).bus.heldData = s.bus.heldData := rfl
@[simp] theorem State.withdraw_bus_freeAt (q : HostReadRequest → Bool) : (s.withdraw q).bus.freeAt = s.bus.freeAt :=
    rfl
@[simp] theorem State.withdraw_bus_nextCheck (q : HostReadRequest → Bool) :
    (s.withdraw q).bus.nextCheck = s.bus.nextCheck := rfl
@[simp] theorem State.withdraw_bus_transaction (q : HostReadRequest → Bool) :
    (s.withdraw q).bus.transaction = s.bus.transaction := rfl
@[simp] theorem State.withdraw_bus_wire (q : HostReadRequest → Bool) : (s.withdraw q).bus.wire = s.bus.wire := rfl
@[simp] theorem State.withdraw_bus_awaitRise (q : HostReadRequest → Bool) :
    (s.withdraw q).bus.awaitRise = s.bus.awaitRise := rfl
@[simp] theorem State.withdraw_bus_clear (q : HostReadRequest → Bool) : (s.withdraw q).bus.clear = s.bus.clear := rfl
@[simp] theorem State.withdraw_bus_watch (q : HostReadRequest → Bool) : (s.withdraw q).bus.watch = s.bus.watch := rfl
@[simp] theorem State.withdraw_bus_hostReads (q : HostReadRequest → Bool) :
    (s.withdraw q).bus.hostReads = s.bus.hostReads.filter fun r => !q r := rfl
@[simp] theorem State.withdraw_bus_lastGranted (q : HostReadRequest → Bool) :
    (s.withdraw q).bus.lastGranted = s.bus.lastGranted := rfl
@[simp] theorem State.withdraw_bus_passCommit (q : HostReadRequest → Bool) :
    (s.withdraw q).bus.passCommit = s.bus.passCommit := rfl
@[simp] theorem State.withdraw_bus_passDirect (q : HostReadRequest → Bool) :
    (s.withdraw q).bus.passDirect = s.bus.passDirect := rfl

/-! ### setTransaction -/

@[simp] theorem State.setTransaction_pending (f : Transaction → Transaction) : (s.setTransaction f).pending = s.pending := rfl
@[simp] theorem State.setTransaction_port (f : Transaction → Transaction) : (s.setTransaction f).port = s.port := rfl
@[simp] theorem State.setTransaction_layout (f : Transaction → Transaction) : (s.setTransaction f).layout = s.layout := rfl
@[simp] theorem State.setTransaction_table (f : Transaction → Transaction) : (s.setTransaction f).table = s.table := rfl
@[simp] theorem State.setTransaction_engine (f : Transaction → Transaction) : (s.setTransaction f).engine = s.engine := rfl
@[simp] theorem State.setTransaction_reads (f : Transaction → Transaction) : (s.setTransaction f).reads = s.reads := rfl
@[simp] theorem State.setTransaction_slot (f : Transaction → Transaction) : (s.setTransaction f).slot = s.slot := rfl
@[simp] theorem State.setTransaction_service (f : Transaction → Transaction) : (s.setTransaction f).service = s.service := rfl
@[simp] theorem State.setTransaction_events (f : Transaction → Transaction) : (s.setTransaction f).events = s.events := rfl
@[simp] theorem State.setTransaction_control (f : Transaction → Transaction) : (s.setTransaction f).control = s.control := rfl
@[simp] theorem State.setTransaction_bus_status (f : Transaction → Transaction) :
    (s.setTransaction f).bus.status = s.bus.status := rfl
@[simp] theorem State.setTransaction_bus_scl (f : Transaction → Transaction) :
    (s.setTransaction f).bus.scl = s.bus.scl := rfl
@[simp] theorem State.setTransaction_bus_sda (f : Transaction → Transaction) :
    (s.setTransaction f).bus.sda = s.bus.sda := rfl
@[simp] theorem State.setTransaction_bus_timer (f : Transaction → Transaction) :
    (s.setTransaction f).bus.timer = s.bus.timer := rfl
@[simp] theorem State.setTransaction_bus_lowStart (f : Transaction → Transaction) :
    (s.setTransaction f).bus.lowStart = s.bus.lowStart := rfl
@[simp] theorem State.setTransaction_bus_idleHigh (f : Transaction → Transaction) :
    (s.setTransaction f).bus.idleHigh = s.bus.idleHigh := rfl
@[simp] theorem State.setTransaction_bus_heldData (f : Transaction → Transaction) :
    (s.setTransaction f).bus.heldData = s.bus.heldData := rfl
@[simp] theorem State.setTransaction_bus_freeAt (f : Transaction → Transaction) :
    (s.setTransaction f).bus.freeAt = s.bus.freeAt := rfl
@[simp] theorem State.setTransaction_bus_nextCheck (f : Transaction → Transaction) :
    (s.setTransaction f).bus.nextCheck = s.bus.nextCheck := rfl
@[simp] theorem State.setTransaction_bus_transaction (f : Transaction → Transaction) :
    (s.setTransaction f).bus.transaction = s.bus.transaction.map f := rfl
@[simp] theorem State.setTransaction_bus_wire (f : Transaction → Transaction) : (s.setTransaction f).bus.wire = none := rfl
@[simp] theorem State.setTransaction_bus_awaitRise (f : Transaction → Transaction) :
    (s.setTransaction f).bus.awaitRise = s.bus.awaitRise := rfl
@[simp] theorem State.setTransaction_bus_clear (f : Transaction → Transaction) :
    (s.setTransaction f).bus.clear = s.bus.clear := rfl
@[simp] theorem State.setTransaction_bus_watch (f : Transaction → Transaction) :
    (s.setTransaction f).bus.watch = s.bus.watch := rfl
@[simp] theorem State.setTransaction_bus_hostReads (f : Transaction → Transaction) :
    (s.setTransaction f).bus.hostReads = s.bus.hostReads := rfl
@[simp] theorem State.setTransaction_bus_lastGranted (f : Transaction → Transaction) :
    (s.setTransaction f).bus.lastGranted = s.bus.lastGranted := rfl
@[simp] theorem State.setTransaction_bus_passCommit (f : Transaction → Transaction) :
    (s.setTransaction f).bus.passCommit = s.bus.passCommit := rfl
@[simp] theorem State.setTransaction_bus_passDirect (f : Transaction → Transaction) :
    (s.setTransaction f).bus.passDirect = s.bus.passDirect := rfl

/-! ### setPhase -/

@[simp] theorem State.setPhase_pending (p : BusPhase) : (s.setPhase p).pending = s.pending := rfl
@[simp] theorem State.setPhase_port (p : BusPhase) : (s.setPhase p).port = s.port := rfl
@[simp] theorem State.setPhase_layout (p : BusPhase) : (s.setPhase p).layout = s.layout := rfl
@[simp] theorem State.setPhase_table (p : BusPhase) : (s.setPhase p).table = s.table := rfl
@[simp] theorem State.setPhase_engine (p : BusPhase) : (s.setPhase p).engine = s.engine := rfl
@[simp] theorem State.setPhase_reads (p : BusPhase) : (s.setPhase p).reads = s.reads := rfl
@[simp] theorem State.setPhase_slot (p : BusPhase) : (s.setPhase p).slot = s.slot := rfl
@[simp] theorem State.setPhase_service (p : BusPhase) : (s.setPhase p).service = s.service := rfl
@[simp] theorem State.setPhase_events (p : BusPhase) : (s.setPhase p).events = s.events := rfl
@[simp] theorem State.setPhase_control (p : BusPhase) : (s.setPhase p).control = s.control := rfl
@[simp] theorem State.setPhase_bus_status (p : BusPhase) : (s.setPhase p).bus.status = s.bus.status := rfl
@[simp] theorem State.setPhase_bus_scl (p : BusPhase) : (s.setPhase p).bus.scl = s.bus.scl := rfl
@[simp] theorem State.setPhase_bus_sda (p : BusPhase) : (s.setPhase p).bus.sda = s.bus.sda := rfl
@[simp] theorem State.setPhase_bus_timer (p : BusPhase) : (s.setPhase p).bus.timer = s.bus.timer := rfl
@[simp] theorem State.setPhase_bus_lowStart (p : BusPhase) : (s.setPhase p).bus.lowStart = s.bus.lowStart := rfl
@[simp] theorem State.setPhase_bus_idleHigh (p : BusPhase) : (s.setPhase p).bus.idleHigh = s.bus.idleHigh := rfl
@[simp] theorem State.setPhase_bus_heldData (p : BusPhase) : (s.setPhase p).bus.heldData = s.bus.heldData := rfl
@[simp] theorem State.setPhase_bus_freeAt (p : BusPhase) : (s.setPhase p).bus.freeAt = s.bus.freeAt := rfl
@[simp] theorem State.setPhase_bus_nextCheck (p : BusPhase) : (s.setPhase p).bus.nextCheck = s.bus.nextCheck := rfl
@[simp] theorem State.setPhase_bus_transaction (p : BusPhase) :
    (s.setPhase p).bus.transaction = s.bus.transaction.map fun t => { t with phase := p } := rfl
@[simp] theorem State.setPhase_bus_wire (p : BusPhase) : (s.setPhase p).bus.wire = none := rfl
@[simp] theorem State.setPhase_bus_awaitRise (p : BusPhase) : (s.setPhase p).bus.awaitRise = s.bus.awaitRise := rfl
@[simp] theorem State.setPhase_bus_clear (p : BusPhase) : (s.setPhase p).bus.clear = s.bus.clear := rfl
@[simp] theorem State.setPhase_bus_watch (p : BusPhase) : (s.setPhase p).bus.watch = s.bus.watch := rfl
@[simp] theorem State.setPhase_bus_hostReads (p : BusPhase) : (s.setPhase p).bus.hostReads = s.bus.hostReads := rfl
@[simp] theorem State.setPhase_bus_lastGranted (p : BusPhase) : (s.setPhase p).bus.lastGranted = s.bus.lastGranted :=
    rfl
@[simp] theorem State.setPhase_bus_passCommit (p : BusPhase) : (s.setPhase p).bus.passCommit = s.bus.passCommit := rfl
@[simp] theorem State.setPhase_bus_passDirect (p : BusPhase) : (s.setPhase p).bus.passDirect = s.bus.passDirect := rfl

/-! ### countBytes -/

@[simp] theorem State.countBytes_pending (n : Nat) : (s.countBytes n).pending = s.pending := rfl
@[simp] theorem State.countBytes_port (n : Nat) : (s.countBytes n).port = s.port := rfl
@[simp] theorem State.countBytes_layout (n : Nat) : (s.countBytes n).layout = s.layout := rfl
@[simp] theorem State.countBytes_table (n : Nat) : (s.countBytes n).table = s.table := rfl
@[simp] theorem State.countBytes_engine (n : Nat) : (s.countBytes n).engine = s.engine := rfl
@[simp] theorem State.countBytes_reads (n : Nat) : (s.countBytes n).reads = s.reads := rfl
@[simp] theorem State.countBytes_slot (n : Nat) : (s.countBytes n).slot = s.slot := rfl
@[simp] theorem State.countBytes_service (n : Nat) : (s.countBytes n).service = s.service := rfl
@[simp] theorem State.countBytes_events (n : Nat) : (s.countBytes n).events = s.events := rfl
@[simp] theorem State.countBytes_control (n : Nat) : (s.countBytes n).control = s.control := rfl
@[simp] theorem State.countBytes_bus_status (n : Nat) : (s.countBytes n).bus.status = s.bus.status := rfl
@[simp] theorem State.countBytes_bus_scl (n : Nat) : (s.countBytes n).bus.scl = s.bus.scl := rfl
@[simp] theorem State.countBytes_bus_sda (n : Nat) : (s.countBytes n).bus.sda = s.bus.sda := rfl
@[simp] theorem State.countBytes_bus_timer (n : Nat) : (s.countBytes n).bus.timer = s.bus.timer := rfl
@[simp] theorem State.countBytes_bus_lowStart (n : Nat) : (s.countBytes n).bus.lowStart = s.bus.lowStart := rfl
@[simp] theorem State.countBytes_bus_idleHigh (n : Nat) : (s.countBytes n).bus.idleHigh = s.bus.idleHigh := rfl
@[simp] theorem State.countBytes_bus_heldData (n : Nat) : (s.countBytes n).bus.heldData = s.bus.heldData := rfl
@[simp] theorem State.countBytes_bus_freeAt (n : Nat) : (s.countBytes n).bus.freeAt = s.bus.freeAt := rfl
@[simp] theorem State.countBytes_bus_nextCheck (n : Nat) : (s.countBytes n).bus.nextCheck = s.bus.nextCheck := rfl
@[simp] theorem State.countBytes_bus_transaction (n : Nat) :
    (s.countBytes n).bus.transaction = s.bus.transaction.map fun t => { t with byteIndex := t.byteIndex + n } := rfl
@[simp] theorem State.countBytes_bus_wire (n : Nat) : (s.countBytes n).bus.wire = none := rfl
@[simp] theorem State.countBytes_bus_awaitRise (n : Nat) : (s.countBytes n).bus.awaitRise = s.bus.awaitRise := rfl
@[simp] theorem State.countBytes_bus_clear (n : Nat) : (s.countBytes n).bus.clear = s.bus.clear := rfl
@[simp] theorem State.countBytes_bus_watch (n : Nat) : (s.countBytes n).bus.watch = s.bus.watch := rfl
@[simp] theorem State.countBytes_bus_hostReads (n : Nat) : (s.countBytes n).bus.hostReads = s.bus.hostReads := rfl
@[simp] theorem State.countBytes_bus_lastGranted (n : Nat) : (s.countBytes n).bus.lastGranted = s.bus.lastGranted :=
    rfl
@[simp] theorem State.countBytes_bus_passCommit (n : Nat) : (s.countBytes n).bus.passCommit = s.bus.passCommit := rfl
@[simp] theorem State.countBytes_bus_passDirect (n : Nat) : (s.countBytes n).bus.passDirect = s.bus.passDirect := rfl

/-! ### startReception -/

@[simp] theorem State.startReception_pending : (s.startReception).pending = s.pending := rfl
@[simp] theorem State.startReception_port : (s.startReception).port = s.port := rfl
@[simp] theorem State.startReception_layout : (s.startReception).layout = s.layout := rfl
@[simp] theorem State.startReception_table : (s.startReception).table = s.table := rfl
@[simp] theorem State.startReception_engine : (s.startReception).engine = s.engine := rfl
@[simp] theorem State.startReception_reads : (s.startReception).reads = s.reads := rfl
@[simp] theorem State.startReception_slot : (s.startReception).slot = s.slot := rfl
@[simp] theorem State.startReception_service : (s.startReception).service = s.service := rfl
@[simp] theorem State.startReception_events : (s.startReception).events = s.events := rfl
@[simp] theorem State.startReception_control : (s.startReception).control = s.control := rfl
@[simp] theorem State.startReception_bus_status : (s.startReception).bus.status = s.bus.status := rfl
@[simp] theorem State.startReception_bus_scl : (s.startReception).bus.scl = s.bus.scl := rfl
@[simp] theorem State.startReception_bus_sda : (s.startReception).bus.sda = s.bus.sda := rfl
@[simp] theorem State.startReception_bus_timer : (s.startReception).bus.timer = s.bus.timer := rfl
@[simp] theorem State.startReception_bus_lowStart : (s.startReception).bus.lowStart = s.bus.lowStart := rfl
@[simp] theorem State.startReception_bus_idleHigh : (s.startReception).bus.idleHigh = s.bus.idleHigh := rfl
@[simp] theorem State.startReception_bus_heldData : (s.startReception).bus.heldData = s.bus.heldData := rfl
@[simp] theorem State.startReception_bus_freeAt : (s.startReception).bus.freeAt = s.bus.freeAt := rfl
@[simp] theorem State.startReception_bus_nextCheck : (s.startReception).bus.nextCheck = s.bus.nextCheck := rfl
@[simp] theorem State.startReception_bus_transaction :
    (s.startReception).bus.transaction = s.bus.transaction.map fun t => { t with phase := .receive, read := true, byteIndex := 0, toSend := [] } := rfl
@[simp] theorem State.startReception_bus_wire : (s.startReception).bus.wire = none := rfl
@[simp] theorem State.startReception_bus_awaitRise : (s.startReception).bus.awaitRise = s.bus.awaitRise := rfl
@[simp] theorem State.startReception_bus_clear : (s.startReception).bus.clear = s.bus.clear := rfl
@[simp] theorem State.startReception_bus_watch : (s.startReception).bus.watch = s.bus.watch := rfl
@[simp] theorem State.startReception_bus_hostReads : (s.startReception).bus.hostReads = s.bus.hostReads := rfl
@[simp] theorem State.startReception_bus_lastGranted : (s.startReception).bus.lastGranted = s.bus.lastGranted := rfl
@[simp] theorem State.startReception_bus_passCommit : (s.startReception).bus.passCommit = s.bus.passCommit := rfl
@[simp] theorem State.startReception_bus_passDirect : (s.startReception).bus.passDirect = s.bus.passDirect := rfl

/-! ### closeTransaction -/

@[simp] theorem State.closeTransaction_pending : (s.closeTransaction).pending = s.pending := rfl
@[simp] theorem State.closeTransaction_port : (s.closeTransaction).port = s.port := rfl
@[simp] theorem State.closeTransaction_layout : (s.closeTransaction).layout = s.layout := rfl
@[simp] theorem State.closeTransaction_table : (s.closeTransaction).table = s.table := rfl
@[simp] theorem State.closeTransaction_engine : (s.closeTransaction).engine = s.engine := rfl
@[simp] theorem State.closeTransaction_reads : (s.closeTransaction).reads = s.reads := rfl
@[simp] theorem State.closeTransaction_slot : (s.closeTransaction).slot = s.slot := rfl
@[simp] theorem State.closeTransaction_service : (s.closeTransaction).service = s.service := rfl
@[simp] theorem State.closeTransaction_events : (s.closeTransaction).events = s.events := rfl
@[simp] theorem State.closeTransaction_control : (s.closeTransaction).control = s.control := rfl
@[simp] theorem State.closeTransaction_bus_status : (s.closeTransaction).bus.status = s.bus.status := rfl
@[simp] theorem State.closeTransaction_bus_scl : (s.closeTransaction).bus.scl = true := rfl
@[simp] theorem State.closeTransaction_bus_sda : (s.closeTransaction).bus.sda = true := rfl
@[simp] theorem State.closeTransaction_bus_timer : (s.closeTransaction).bus.timer = s.bus.timer := rfl
@[simp] theorem State.closeTransaction_bus_lowStart : (s.closeTransaction).bus.lowStart = none := rfl
@[simp] theorem State.closeTransaction_bus_idleHigh :
    (s.closeTransaction).bus.idleHigh = some { timer := s.bus.timer, stamp := s.now } := rfl
@[simp] theorem State.closeTransaction_bus_heldData : (s.closeTransaction).bus.heldData = none := rfl
@[simp] theorem State.closeTransaction_bus_freeAt :
    (s.closeTransaction).bus.freeAt = some (s.bus.timer + BitVec.ofNat 32 s.layout.params.rate.freeSteps) := rfl
@[simp] theorem State.closeTransaction_bus_nextCheck : (s.closeTransaction).bus.nextCheck = s.bus.nextCheck := rfl
@[simp] theorem State.closeTransaction_bus_transaction : (s.closeTransaction).bus.transaction = none := rfl
@[simp] theorem State.closeTransaction_bus_wire : (s.closeTransaction).bus.wire = none := rfl
@[simp] theorem State.closeTransaction_bus_awaitRise : (s.closeTransaction).bus.awaitRise = s.bus.awaitRise := rfl
@[simp] theorem State.closeTransaction_bus_clear : (s.closeTransaction).bus.clear = s.bus.clear := rfl
@[simp] theorem State.closeTransaction_bus_watch : (s.closeTransaction).bus.watch = s.bus.watch := rfl
@[simp] theorem State.closeTransaction_bus_hostReads : (s.closeTransaction).bus.hostReads = s.bus.hostReads := rfl
@[simp] theorem State.closeTransaction_bus_lastGranted : (s.closeTransaction).bus.lastGranted = s.bus.lastGranted :=
    rfl
@[simp] theorem State.closeTransaction_bus_passCommit : (s.closeTransaction).bus.passCommit = s.bus.passCommit := rfl
@[simp] theorem State.closeTransaction_bus_passDirect : (s.closeTransaction).bus.passDirect = s.bus.passDirect := rfl

/-! ### sendClose -/

@[simp] theorem State.sendClose_pending : (s.sendClose).pending = s.pending := rfl
@[simp] theorem State.sendClose_port : (s.sendClose).port = s.port := rfl
@[simp] theorem State.sendClose_layout : (s.sendClose).layout = s.layout := rfl
@[simp] theorem State.sendClose_table : (s.sendClose).table = s.table := rfl
@[simp] theorem State.sendClose_engine : (s.sendClose).engine = s.engine := rfl
@[simp] theorem State.sendClose_reads : (s.sendClose).reads = s.reads := rfl
@[simp] theorem State.sendClose_slot : (s.sendClose).slot = s.slot := rfl
@[simp] theorem State.sendClose_service : (s.sendClose).service = s.service := rfl
@[simp] theorem State.sendClose_events : (s.sendClose).events = s.events := rfl
@[simp] theorem State.sendClose_control : (s.sendClose).control = s.control := rfl
@[simp] theorem State.sendClose_bus_status : (s.sendClose).bus.status = s.bus.status := rfl
@[simp] theorem State.sendClose_bus_scl : (s.sendClose).bus.scl = true := rfl
@[simp] theorem State.sendClose_bus_sda : (s.sendClose).bus.sda = true := rfl
@[simp] theorem State.sendClose_bus_timer : (s.sendClose).bus.timer = s.bus.timer := rfl
@[simp] theorem State.sendClose_bus_lowStart : (s.sendClose).bus.lowStart = none := rfl
@[simp] theorem State.sendClose_bus_idleHigh : (s.sendClose).bus.idleHigh = none := rfl
@[simp] theorem State.sendClose_bus_heldData : (s.sendClose).bus.heldData = none := rfl
@[simp] theorem State.sendClose_bus_freeAt :
    (s.sendClose).bus.freeAt = some (s.bus.timer + BitVec.ofNat 32 (2 * s.layout.params.rate.halfSteps + s.layout.params.rate.freeSteps)) := rfl
@[simp] theorem State.sendClose_bus_nextCheck : (s.sendClose).bus.nextCheck = s.bus.nextCheck := rfl
@[simp] theorem State.sendClose_bus_transaction : (s.sendClose).bus.transaction = none := rfl
@[simp] theorem State.sendClose_bus_wire :
    (s.sendClose).bus.wire = some { half := .closeLow none, since := s.bus.timer } := rfl
@[simp] theorem State.sendClose_bus_awaitRise : (s.sendClose).bus.awaitRise = s.bus.awaitRise := rfl
@[simp] theorem State.sendClose_bus_clear : (s.sendClose).bus.clear = s.bus.clear := rfl
@[simp] theorem State.sendClose_bus_watch : (s.sendClose).bus.watch = s.bus.watch := rfl
@[simp] theorem State.sendClose_bus_hostReads : (s.sendClose).bus.hostReads = s.bus.hostReads := rfl
@[simp] theorem State.sendClose_bus_lastGranted : (s.sendClose).bus.lastGranted = s.bus.lastGranted := rfl
@[simp] theorem State.sendClose_bus_passCommit : (s.sendClose).bus.passCommit = s.bus.passCommit := rfl
@[simp] theorem State.sendClose_bus_passDirect : (s.sendClose).bus.passDirect = s.bus.passDirect := rfl

/-! ### resume -/

@[simp] theorem State.resume_pending : (s.resume).pending = s.pending := rfl
@[simp] theorem State.resume_port : (s.resume).port = s.port := rfl
@[simp] theorem State.resume_layout : (s.resume).layout = s.layout := rfl
@[simp] theorem State.resume_table : (s.resume).table = s.table := rfl
@[simp] theorem State.resume_engine : (s.resume).engine = s.engine := rfl
@[simp] theorem State.resume_reads : (s.resume).reads = s.reads := rfl
@[simp] theorem State.resume_slot : (s.resume).slot = s.slot := rfl
@[simp] theorem State.resume_service : (s.resume).service = s.service := rfl
@[simp] theorem State.resume_events : (s.resume).events = s.events := rfl
@[simp] theorem State.resume_control : (s.resume).control = s.control := rfl
@[simp] theorem State.resume_bus_status : (s.resume).bus.status = s.bus.status := rfl
@[simp] theorem State.resume_bus_scl : (s.resume).bus.scl = s.bus.scl := rfl
@[simp] theorem State.resume_bus_sda : (s.resume).bus.sda = s.bus.sda := rfl
@[simp] theorem State.resume_bus_timer : (s.resume).bus.timer = s.bus.timer := rfl
@[simp] theorem State.resume_bus_lowStart : (s.resume).bus.lowStart = s.bus.lowStart := rfl
@[simp] theorem State.resume_bus_idleHigh : (s.resume).bus.idleHigh = s.bus.idleHigh := rfl
@[simp] theorem State.resume_bus_heldData : (s.resume).bus.heldData = s.bus.heldData := rfl
@[simp] theorem State.resume_bus_freeAt : (s.resume).bus.freeAt = s.bus.freeAt := rfl
@[simp] theorem State.resume_bus_nextCheck : (s.resume).bus.nextCheck = s.bus.nextCheck := rfl
@[simp] theorem State.resume_bus_transaction :
    (s.resume).bus.transaction = s.bus.transaction.map fun t => { t with phase := .receive } := rfl
@[simp] theorem State.resume_bus_wire :
    (s.resume).bus.wire = if s.bus.status = .owned then s.bus.transaction.map fun _ => { half := .clockHigh [], since := s.bus.timer } else none := rfl
@[simp] theorem State.resume_bus_awaitRise : (s.resume).bus.awaitRise = s.bus.awaitRise := rfl
@[simp] theorem State.resume_bus_clear : (s.resume).bus.clear = s.bus.clear := rfl
@[simp] theorem State.resume_bus_watch : (s.resume).bus.watch = s.bus.watch := rfl
@[simp] theorem State.resume_bus_hostReads : (s.resume).bus.hostReads = s.bus.hostReads := rfl
@[simp] theorem State.resume_bus_lastGranted : (s.resume).bus.lastGranted = s.bus.lastGranted := rfl
@[simp] theorem State.resume_bus_passCommit : (s.resume).bus.passCommit = s.bus.passCommit := rfl
@[simp] theorem State.resume_bus_passDirect : (s.resume).bus.passDirect = s.bus.passDirect := rfl

/-! ### beginHalf -/

@[simp] theorem State.beginHalf_pending (h : HalfBit) : (s.beginHalf h).pending = s.pending := rfl
@[simp] theorem State.beginHalf_port (h : HalfBit) : (s.beginHalf h).port = s.port := rfl
@[simp] theorem State.beginHalf_layout (h : HalfBit) : (s.beginHalf h).layout = s.layout := rfl
@[simp] theorem State.beginHalf_table (h : HalfBit) : (s.beginHalf h).table = s.table := rfl
@[simp] theorem State.beginHalf_engine (h : HalfBit) : (s.beginHalf h).engine = s.engine := rfl
@[simp] theorem State.beginHalf_reads (h : HalfBit) : (s.beginHalf h).reads = s.reads := rfl
@[simp] theorem State.beginHalf_slot (h : HalfBit) : (s.beginHalf h).slot = s.slot := rfl
@[simp] theorem State.beginHalf_service (h : HalfBit) : (s.beginHalf h).service = s.service := rfl
@[simp] theorem State.beginHalf_events (h : HalfBit) : (s.beginHalf h).events = s.events := rfl
@[simp] theorem State.beginHalf_control (h : HalfBit) : (s.beginHalf h).control = s.control := rfl
@[simp] theorem State.beginHalf_bus_status (h : HalfBit) : (s.beginHalf h).bus.status = s.bus.status := rfl
@[simp] theorem State.beginHalf_bus_scl (h : HalfBit) : (s.beginHalf h).bus.scl = s.bus.scl := rfl
@[simp] theorem State.beginHalf_bus_sda (h : HalfBit) : (s.beginHalf h).bus.sda = s.bus.sda := rfl
@[simp] theorem State.beginHalf_bus_timer (h : HalfBit) : (s.beginHalf h).bus.timer = s.bus.timer := rfl
@[simp] theorem State.beginHalf_bus_lowStart (h : HalfBit) : (s.beginHalf h).bus.lowStart = s.bus.lowStart := rfl
@[simp] theorem State.beginHalf_bus_idleHigh (h : HalfBit) : (s.beginHalf h).bus.idleHigh = s.bus.idleHigh := rfl
@[simp] theorem State.beginHalf_bus_heldData (h : HalfBit) : (s.beginHalf h).bus.heldData = s.bus.heldData := rfl
@[simp] theorem State.beginHalf_bus_freeAt (h : HalfBit) : (s.beginHalf h).bus.freeAt = s.bus.freeAt := rfl
@[simp] theorem State.beginHalf_bus_nextCheck (h : HalfBit) : (s.beginHalf h).bus.nextCheck = s.bus.nextCheck := rfl
@[simp] theorem State.beginHalf_bus_transaction (h : HalfBit) :
    (s.beginHalf h).bus.transaction = s.bus.transaction := rfl
@[simp] theorem State.beginHalf_bus_wire (h : HalfBit) :
    (s.beginHalf h).bus.wire = some { half := h, since := s.bus.timer } := rfl
@[simp] theorem State.beginHalf_bus_awaitRise (h : HalfBit) : (s.beginHalf h).bus.awaitRise = s.bus.awaitRise := rfl
@[simp] theorem State.beginHalf_bus_clear (h : HalfBit) : (s.beginHalf h).bus.clear = s.bus.clear := rfl
@[simp] theorem State.beginHalf_bus_watch (h : HalfBit) : (s.beginHalf h).bus.watch = s.bus.watch := rfl
@[simp] theorem State.beginHalf_bus_hostReads (h : HalfBit) : (s.beginHalf h).bus.hostReads = s.bus.hostReads := rfl
@[simp] theorem State.beginHalf_bus_lastGranted (h : HalfBit) :
    (s.beginHalf h).bus.lastGranted = s.bus.lastGranted := rfl
@[simp] theorem State.beginHalf_bus_passCommit (h : HalfBit) :
    (s.beginHalf h).bus.passCommit = s.bus.passCommit := rfl
@[simp] theorem State.beginHalf_bus_passDirect (h : HalfBit) :
    (s.beginHalf h).bus.passDirect = s.bus.passDirect := rfl

/-! ### runTimer -/

@[simp] theorem State.runTimer_pending (n : Nat) (w : Option Wire) : (s.runTimer n w).pending = s.pending := rfl
@[simp] theorem State.runTimer_port (n : Nat) (w : Option Wire) : (s.runTimer n w).port = s.port := rfl
@[simp] theorem State.runTimer_layout (n : Nat) (w : Option Wire) : (s.runTimer n w).layout = s.layout := rfl
@[simp] theorem State.runTimer_table (n : Nat) (w : Option Wire) : (s.runTimer n w).table = s.table := rfl
@[simp] theorem State.runTimer_engine (n : Nat) (w : Option Wire) : (s.runTimer n w).engine = s.engine := rfl
@[simp] theorem State.runTimer_reads (n : Nat) (w : Option Wire) : (s.runTimer n w).reads = s.reads := rfl
@[simp] theorem State.runTimer_slot (n : Nat) (w : Option Wire) : (s.runTimer n w).slot = s.slot := rfl
@[simp] theorem State.runTimer_service (n : Nat) (w : Option Wire) : (s.runTimer n w).service = s.service := rfl
@[simp] theorem State.runTimer_events (n : Nat) (w : Option Wire) : (s.runTimer n w).events = s.events := rfl
@[simp] theorem State.runTimer_control (n : Nat) (w : Option Wire) : (s.runTimer n w).control = s.control := rfl
@[simp] theorem State.runTimer_bus_status (n : Nat) (w : Option Wire) :
    (s.runTimer n w).bus.status = s.bus.status := rfl
@[simp] theorem State.runTimer_bus_scl (n : Nat) (w : Option Wire) : (s.runTimer n w).bus.scl = s.bus.scl := rfl
@[simp] theorem State.runTimer_bus_sda (n : Nat) (w : Option Wire) : (s.runTimer n w).bus.sda = s.bus.sda := rfl
@[simp] theorem State.runTimer_bus_timer (n : Nat) (w : Option Wire) :
    (s.runTimer n w).bus.timer = s.bus.timer + BitVec.ofNat 32 n := rfl
@[simp] theorem State.runTimer_bus_lowStart (n : Nat) (w : Option Wire) :
    (s.runTimer n w).bus.lowStart = s.bus.lowStart := rfl
@[simp] theorem State.runTimer_bus_idleHigh (n : Nat) (w : Option Wire) :
    (s.runTimer n w).bus.idleHigh = s.bus.idleHigh := rfl
@[simp] theorem State.runTimer_bus_heldData (n : Nat) (w : Option Wire) :
    (s.runTimer n w).bus.heldData = s.bus.heldData := rfl
@[simp] theorem State.runTimer_bus_freeAt (n : Nat) (w : Option Wire) :
    (s.runTimer n w).bus.freeAt = s.bus.freeAt := rfl
@[simp] theorem State.runTimer_bus_nextCheck (n : Nat) (w : Option Wire) :
    (s.runTimer n w).bus.nextCheck = s.bus.nextCheck := rfl
@[simp] theorem State.runTimer_bus_transaction (n : Nat) (w : Option Wire) :
    (s.runTimer n w).bus.transaction = s.bus.transaction := rfl
@[simp] theorem State.runTimer_bus_wire (n : Nat) (w : Option Wire) : (s.runTimer n w).bus.wire = w := rfl
@[simp] theorem State.runTimer_bus_awaitRise (n : Nat) (w : Option Wire) :
    (s.runTimer n w).bus.awaitRise = s.bus.awaitRise := rfl
@[simp] theorem State.runTimer_bus_clear (n : Nat) (w : Option Wire) : (s.runTimer n w).bus.clear = s.bus.clear := rfl
@[simp] theorem State.runTimer_bus_watch (n : Nat) (w : Option Wire) : (s.runTimer n w).bus.watch = s.bus.watch := rfl
@[simp] theorem State.runTimer_bus_hostReads (n : Nat) (w : Option Wire) :
    (s.runTimer n w).bus.hostReads = s.bus.hostReads := rfl
@[simp] theorem State.runTimer_bus_lastGranted (n : Nat) (w : Option Wire) :
    (s.runTimer n w).bus.lastGranted = s.bus.lastGranted := rfl
@[simp] theorem State.runTimer_bus_passCommit (n : Nat) (w : Option Wire) :
    (s.runTimer n w).bus.passCommit = s.bus.passCommit := rfl
@[simp] theorem State.runTimer_bus_passDirect (n : Nat) (w : Option Wire) :
    (s.runTimer n w).bus.passDirect = s.bus.passDirect := rfl

/-! ### popHostRead -/

@[simp] theorem State.popHostRead_pending : (s.popHostRead).pending = s.pending := rfl
@[simp] theorem State.popHostRead_port : (s.popHostRead).port = s.port := rfl
@[simp] theorem State.popHostRead_layout : (s.popHostRead).layout = s.layout := rfl
@[simp] theorem State.popHostRead_table : (s.popHostRead).table = s.table := rfl
@[simp] theorem State.popHostRead_engine : (s.popHostRead).engine = s.engine := rfl
@[simp] theorem State.popHostRead_reads : (s.popHostRead).reads = s.reads := rfl
@[simp] theorem State.popHostRead_slot : (s.popHostRead).slot = s.slot := rfl
@[simp] theorem State.popHostRead_service : (s.popHostRead).service = s.service := rfl
@[simp] theorem State.popHostRead_events : (s.popHostRead).events = s.events := rfl
@[simp] theorem State.popHostRead_control : (s.popHostRead).control = s.control := rfl
@[simp] theorem State.popHostRead_bus_status : (s.popHostRead).bus.status = s.bus.status := rfl
@[simp] theorem State.popHostRead_bus_scl : (s.popHostRead).bus.scl = s.bus.scl := rfl
@[simp] theorem State.popHostRead_bus_sda : (s.popHostRead).bus.sda = s.bus.sda := rfl
@[simp] theorem State.popHostRead_bus_timer : (s.popHostRead).bus.timer = s.bus.timer := rfl
@[simp] theorem State.popHostRead_bus_lowStart : (s.popHostRead).bus.lowStart = s.bus.lowStart := rfl
@[simp] theorem State.popHostRead_bus_idleHigh : (s.popHostRead).bus.idleHigh = s.bus.idleHigh := rfl
@[simp] theorem State.popHostRead_bus_heldData : (s.popHostRead).bus.heldData = s.bus.heldData := rfl
@[simp] theorem State.popHostRead_bus_freeAt : (s.popHostRead).bus.freeAt = s.bus.freeAt := rfl
@[simp] theorem State.popHostRead_bus_nextCheck : (s.popHostRead).bus.nextCheck = s.bus.nextCheck := rfl
@[simp] theorem State.popHostRead_bus_transaction : (s.popHostRead).bus.transaction = s.bus.transaction := rfl
@[simp] theorem State.popHostRead_bus_wire : (s.popHostRead).bus.wire = s.bus.wire := rfl
@[simp] theorem State.popHostRead_bus_awaitRise : (s.popHostRead).bus.awaitRise = s.bus.awaitRise := rfl
@[simp] theorem State.popHostRead_bus_clear : (s.popHostRead).bus.clear = s.bus.clear := rfl
@[simp] theorem State.popHostRead_bus_watch : (s.popHostRead).bus.watch = s.bus.watch := rfl
@[simp] theorem State.popHostRead_bus_hostReads : (s.popHostRead).bus.hostReads = s.bus.hostReads.tail := rfl
@[simp] theorem State.popHostRead_bus_lastGranted : (s.popHostRead).bus.lastGranted = s.bus.lastGranted := rfl
@[simp] theorem State.popHostRead_bus_passCommit : (s.popHostRead).bus.passCommit = s.bus.passCommit := rfl
@[simp] theorem State.popHostRead_bus_passDirect : (s.popHostRead).bus.passDirect = s.bus.passDirect := rfl

end Sys2Proof.Machine
end

