-- ==== Sys2Proof/Laws/Outside.lean ====
section
/-! SUPPORT. What stands outside the blocks' own work: the queue of commands, the layout and where it came from, the
time base, the enable mask, the service port and the straps. One lemma for each operation that leaves all of it
alone; a statement about any of these fields follows with `congrArg`. -/

namespace Sys2Proof.Machine

/-- The fields that only a few commands change. -/
structure Outside where
  pending : List Instr
  layout : Layout
  source : Option LayoutSource
  uptime : Word
  fraction : Fin 10
  mask : Half
  service : ServicePort
  bootTarget : BitVec 7
  bootBytes : Nat

/-- Those fields of a state. -/
def State.outside (s : State) : Outside :=
  { pending := s.pending, layout := s.layout, source := s.control.source, uptime := s.events.uptime
    fraction := s.events.fraction, mask := s.events.mask, service := s.service
    bootTarget := s.control.bootTarget, bootBytes := s.control.bootBytes }

/-- The fields agree when what stands outside does. -/
theorem State.outside_fields (s t : State) (h : s.outside = t.outside) :
    s.pending = t.pending ∧ s.layout = t.layout ∧ s.control.source = t.control.source
      ∧ s.events.uptime = t.events.uptime ∧ s.events.fraction = t.events.fraction ∧ s.events.mask = t.events.mask
      ∧ s.service = t.service ∧ s.control.bootTarget = t.control.bootTarget
      ∧ s.control.bootBytes = t.control.bootBytes :=
  ⟨congrArg Outside.pending h, congrArg Outside.layout h, congrArg Outside.source h, congrArg Outside.uptime h,
    congrArg Outside.fraction h, congrArg Outside.mask h, congrArg Outside.service h, congrArg Outside.bootTarget h,
    congrArg Outside.bootBytes h⟩

/-- A fold of operations that leave the outside alone does so too. -/
theorem foldl_outside {α : Type} (f : State → α → State) (hf : ∀ s a, (f s a).outside = s.outside) (xs : List α)
    (s : State) : (xs.foldl f s).outside = s.outside := by
  induction xs generalizing s with
  | nil => rfl
  | cons x xs ih => rw [List.foldl_cons, ih, hf]

/-- A change of the access record alone leaves the outside alone. -/
@[simp] theorem State.port_outside (s : State) (p : Access) : { s with port := p }.outside = s.outside := rfl

/-- A change of the buffer table alone leaves the outside alone. -/
@[simp] theorem State.table_outside (s : State) (b : BufferTable) : { s with table := b }.outside = s.outside := rfl

/-- A change of the slot alone leaves the outside alone. -/
@[simp] theorem State.slot_outside (s : State) (b : Slot) : { s with slot := b }.outside = s.outside := rfl

variable (s : State)

@[simp] theorem State.setBuffer_outside (n : Index) (b : Buffer) : (s.setBuffer n b).outside = s.outside := rfl
@[simp] theorem State.updateHold_outside (n : Index) (f : PageHold → PageHold) :
    (s.updateHold n f).outside = s.outside := rfl
@[simp] theorem State.setImage_outside (n : Index) (im : Image) : (s.setImage n im).outside = s.outside := rfl
@[simp] theorem State.setQueue_outside (q : List Index) : (s.setQueue q).outside = s.outside := rfl
@[simp] theorem State.setRecord_outside (d : Index) (r : DeviceRecord) : (s.setRecord d r).outside = s.outside := rfl
@[simp] theorem State.setStatus_outside (d : Index) (st : DeviceStatus) :
    (s.setStatus d st).outside = s.outside := rfl
@[simp] theorem State.setNacks_outside (d : Index) (k : Nat) : (s.setNacks d k).outside = s.outside := rfl
@[simp] theorem State.ackDevice_outside (d : Index) : (s.ackDevice d).outside = s.outside := by
  simp only [State.ackDevice]
  split <;> simp

@[simp] theorem State.countNack_outside (d : Index) : (s.countNack d).outside = s.outside := by
  simp [State.countNack]

@[simp] theorem State.setBus_outside (f : Bus → Bus) : (s.setBus f).outside = s.outside := rfl
@[simp] theorem State.setStream_outside (st : Stream) : (s.setStream st).outside = s.outside := rfl
@[simp] theorem State.setAhead_outside (a : ReadAhead) : (s.setAhead a).outside = s.outside := rfl
@[simp] theorem State.setReads_outside (r : ReadPath) : (s.setReads r).outside = s.outside := rfl
@[simp] theorem State.setRequests_outside (rs : List Index) : (s.setRequests rs).outside = s.outside := rfl
@[simp] theorem State.setMode_outside (m : Mode) : (s.setMode m).outside = s.outside := rfl
@[simp] theorem State.setRecordRead_outside (r : Option RecordRead) : (s.setRecordRead r).outside = s.outside := rfl
@[simp] theorem State.countEvent_outside (k : EventKind) : (s.countEvent k).outside = s.outside := rfl
@[simp] theorem State.logFault_outside (f : FaultInfo) : (s.logFault f).outside = s.outside := by
  unfold State.logFault EventUnit.append
  split <;> rfl

@[simp] theorem State.answer_outside (a : HostRequest → Answer) : (s.answer a).outside = s.outside := by
  simp only [State.answer]
  split <;> simp

@[simp] theorem State.serveRead_outside (bs : List Byte) : (s.serveRead bs).outside = s.outside := by
  simp [State.serveRead]

@[simp] theorem State.acceptWrite_outside : (s.acceptWrite).outside = s.outside := by
  simp [State.acceptWrite]

@[simp] theorem State.refuse_outside (fault : Option FaultInfo) : (s.refuse fault).outside = s.outside := by
  simp only [State.refuse]
  (repeat' split) <;> simp

@[simp] theorem State.setHold_outside (h : Hold) : (s.setHold h).outside = s.outside := by
  simp only [State.setHold]
  split <;> simp

@[simp] theorem State.setRead_outside (r : ReadRecord) : (s.setRead r).outside = s.outside := by
  simp [State.setRead]

@[simp] theorem State.freeBuffer_outside (n : Index) : (s.freeBuffer n).outside = s.outside := by
  simp only [State.freeBuffer]
  (repeat' split) <;> simp

@[simp] theorem State.freeIf_outside (st : BufferState) (n : Index) : (s.freeIf st n).outside = s.outside := by
  simp only [State.freeIf]
  split <;> simp

@[simp] theorem State.cleanRelease_outside : s.cleanRelease.outside = s.outside :=
  foldl_outside _ (fun s n => State.freeIf_outside s _ n) _ s

@[simp] theorem State.holdBuffer_outside (cause : HoldCause) (n : Index) :
    (s.holdBuffer cause n).outside = s.outside := by
  simp only [State.holdBuffer]
  split <;> simp

@[simp] theorem State.openBuffer_outside (n d : Index) (p : Nat) (ph : Phase) :
    (s.openBuffer n d p ph).outside = s.outside := by
  simp [State.openBuffer]

@[simp] theorem State.mergeWrite_outside (n : Index) (t : Translation) (data : List Byte) :
    (s.mergeWrite n t data).outside = s.outside := by
  simp [State.mergeWrite]

@[simp] theorem State.convert_outside (n : Index) (t : Translation) : (s.convert n t).outside = s.outside := by
  simp [State.convert]

@[simp] theorem State.touchClean_outside (n : Index) : (s.touchClean n).outside = s.outside := by
  simp [State.touchClean]

@[simp] theorem State.joinRequest_outside (n : Index) : (s.joinRequest n).outside = s.outside := by
  simp only [State.joinRequest]
  split <;> simp

@[simp] theorem State.takeBuffer_outside (n : Index) : (s.takeBuffer n).outside = s.outside := by
  simp only [State.takeBuffer]
  (repeat' split) <;> simp

@[simp] theorem State.select_outside : s.select.outside = s.outside :=
  foldl_outside _ (fun s n => by split <;> simp) _ s

@[simp] theorem State.enqueue_outside (n : Index) : (s.enqueue n).outside = s.outside := by
  simp only [State.enqueue]
  split <;> simp

@[simp] theorem State.sealBuffer_outside (n : Index) : (s.sealBuffer n).outside = s.outside := by
  simp only [State.sealBuffer]
  split <;> simp

@[simp] theorem State.sealOldest_outside (except : Option Index) : (s.sealOldest except).outside = s.outside := by
  simp only [State.sealOldest]
  split <;> simp

@[simp] theorem State.reserveSeal_outside (except : Option Index) : (s.reserveSeal except).outside = s.outside := by
  simp only [State.reserveSeal]
  split <;> simp

@[simp] theorem State.sealAll_outside : s.sealAll.outside = s.outside :=
  foldl_outside _ State.sealBuffer_outside _ s

@[simp] theorem State.deferReads_outside (d : Index) : (s.deferReads d).outside = s.outside := by
  simp only [State.deferReads]
  (repeat' split) <;> simp

@[simp] theorem State.enterCycling_outside (d : Index) : (s.enterCycling d).outside = s.outside := by
  simp [State.enterCycling]

@[simp] theorem State.busyNack_outside (d : Index) : (s.busyNack d).outside = s.outside := by
  simp only [State.busyNack]
  split <;> simp

@[simp] theorem State.present_outside (q : HostReadRequest) : (s.present q).outside = s.outside := rfl
@[simp] theorem State.withdraw_outside (q : HostReadRequest → Bool) : (s.withdraw q).outside = s.outside := rfl
@[simp] theorem State.closeTransaction_outside : (s.closeTransaction).outside = s.outside := rfl
@[simp] theorem State.sendClose_outside : (s.sendClose).outside = s.outside := rfl
@[simp] theorem State.resume_outside : (s.resume).outside = s.outside := rfl
@[simp] theorem State.setTransaction_outside (f : Transaction → Transaction) :
    (s.setTransaction f).outside = s.outside := rfl
@[simp] theorem State.setPhase_outside (p : BusPhase) : (s.setPhase p).outside = s.outside := rfl
@[simp] theorem State.countBytes_outside (n : Nat) : (s.countBytes n).outside = s.outside := rfl
@[simp] theorem State.startReception_outside : (s.startReception).outside = s.outside := rfl
@[simp] theorem State.emptyAhead_outside : (s.emptyAhead).outside = s.outside := by
  simp [State.emptyAhead]

@[simp] theorem State.emptyAheadOf_outside (d : Index) : (s.emptyAheadOf d).outside = s.outside := by
  simp only [State.emptyAheadOf]
  split <;> simp

@[simp] theorem State.streamNext_outside : (s.streamNext).outside = s.outside := by
  simp only [State.streamNext]
  (repeat' split) <;> simp

@[simp] theorem State.parkedCloses_outside : (s.parkedCloses).outside = s.outside := by
  simp only [State.parkedCloses]
  (repeat' split) <;> simp

@[simp] theorem State.readAheadRestart_outside : (s.readAheadRestart).outside = s.outside := by
  simp only [State.readAheadRestart]
  (repeat' split) <;> simp

@[simp] theorem State.completeRead_outside (bs : List Byte) : (s.completeRead bs).outside = s.outside := by
  simp [State.completeRead]

@[simp] theorem State.streamCloses_outside : (s.streamCloses).outside = s.outside := by
  simp only [State.streamCloses, State.setReads_outside]

@[simp] theorem State.demandEmpty_outside : (s.demandEmpty).outside = s.outside := by
  simp only [State.demandEmpty, State.setReads_outside]

@[simp] theorem State.joinAhead_outside (p : StreamPos) (v : Byte) : (s.joinAhead p v).outside = s.outside := by
  simp only [State.joinAhead]
  split <;> simp

@[simp] theorem State.refuseRead_outside (r : ReadRecord) (kind : FaultKind) (detail : Byte) (buffer : Option Index) :
    (s.refuseRead r kind detail buffer).outside = s.outside := by
  simp [State.refuseRead]

@[simp] theorem State.refuseSilentRead_outside (r : ReadRecord) : (s.refuseSilentRead r).outside = s.outside := by
  simp [State.refuseSilentRead]

@[simp] theorem State.refuseNoBufferRead_outside (r : ReadRecord) : (s.refuseNoBufferRead r).outside = s.outside := by
  simp [State.refuseNoBufferRead]

@[simp] theorem State.seekStream_outside (r : ReadRecord) (x : Nat) : (s.seekStream r x).outside = s.outside := by
  simp only [State.seekStream]
  (repeat' split) <;> simp

/-- A buffer obtained for a page leaves the outside alone. -/
theorem State.obtain_outside (n : Index) (t : State) (h : s.obtain = some (n, t)) : t.outside = s.outside := by
  simp only [State.obtain] at h
  split at h
  · cases h; rfl
  · cases he : s.evictable with
    | none => simp [he] at h
    | some m =>
      simp only [he, Option.map_some, Option.some.injEq, Prod.mk.injEq] at h
      rw [← h.2, State.freeBuffer_outside]

/-- A forwarded byte leaves the outside alone. -/
theorem State.forward_outside (d : Index) (p pos : Nat) (v : Byte) (t : State) (h : s.forward d p pos = some (v, t)) :
    t.outside = s.outside := by
  simp only [State.forward] at h
  split at h
  · cases h; rfl
  · cases hc : s.cleanSource d p pos with
    | none => simp [hc] at h
    | some m =>
      simp only [hc, Option.map_some, Option.some.injEq, Prod.mk.injEq] at h
      rw [← h.2, State.touchClean_outside]

/-- A byte from the read-ahead queue leaves the outside alone. -/
theorem State.takeAhead_outside (d : Index) (x : Nat) (v : Byte) (t : State) (h : s.takeAhead d x = some (v, t)) :
    t.outside = s.outside := by
  simp only [State.takeAhead] at h
  split at h
  · simp only [Option.some.injEq, Prod.mk.injEq] at h
    rw [← h.2, State.setAhead_outside]
  · cases h

@[simp] theorem State.allocateVerify_outside (r : ReadRecord) : (s.allocateVerify r).outside = s.outside := by
  simp only [State.allocateVerify]
  split
  · rename_i n t h
    simp [s.obtain_outside n t h]
  · split <;> simp

@[simp] theorem State.seekVerify_outside (r : ReadRecord) : (s.seekVerify r).outside = s.outside := by
  simp only [State.seekVerify]
  (repeat' split) <;> simp

@[simp] theorem State.seekMemory_outside (r : ReadRecord) : (s.seekMemory r).outside = s.outside := by
  simp only [State.seekMemory]
  (repeat' split) <;> simp

@[simp] theorem State.resolveFrom_outside (ps : List Nat) (r : ReadRecord) :
    (s.resolveFrom ps r).outside = s.outside := by
  induction ps generalizing s r with
  | nil => simp [State.resolveFrom]
  | cons p ps ih =>
    simp only [State.resolveFrom]
    split
    · rename_i v t h
      rw [ih, s.forward_outside _ _ _ v t h]
    · split
      · rename_i v t h
        split at h
        · cases h
        · rw [ih, s.takeAhead_outside _ _ v t h]
      · simp

@[simp] theorem State.resolve_outside (r : ReadRecord) : (s.resolve r).outside = s.outside := by
  simp [State.resolve]

@[simp] theorem State.afterClose_outside : (s.afterClose).outside = s.outside := by
  simp only [State.afterClose]
  (repeat' split) <;> simp

@[simp] theorem State.retryRead_outside (r : ReadRecord) (outcome : Byte) :
    (s.retryRead r outcome).outside = s.outside := by
  simp only [State.retryRead]
  split <;> simp

theorem State.streamFails_outside (f : State → ReadRecord → State) (hf : ∀ s r, (f s r).outside = s.outside) :
    (s.streamFails f).outside = s.outside := by
  simp only [State.streamFails]
  split <;> simp [hf]

@[simp] theorem State.dropRead_outside : (s.dropRead).outside = s.outside := by
  simp [State.dropRead]

@[simp] theorem State.refuseSilentWrite_outside (t : Translation) : (s.refuseSilentWrite t).outside = s.outside := by
  simp [State.refuseSilentWrite]

@[simp] theorem State.refuseNoBufferWrite_outside (t : Translation) :
    (s.refuseNoBufferWrite t).outside = s.outside := by
  simp [State.refuseNoBufferWrite]

@[simp] theorem State.sealIfDue_outside (n : Index) (t : Translation) : (s.sealIfDue n t).outside = s.outside := by
  simp only [State.sealIfDue]
  (repeat' split) <;> simp

@[simp] theorem State.acceptInto_outside (n : Index) (t : Translation) (obtained : Bool) :
    (s.acceptInto n t obtained).outside = s.outside := by
  simp only [State.acceptInto]
  split <;> simp

@[simp] theorem State.waitForBuffer_outside (t : Translation) : (s.waitForBuffer t).outside = s.outside := by
  simp only [State.waitForBuffer]
  (repeat' split) <;> simp

@[simp] theorem State.writeNewBuffer_outside (t : Translation) : (s.writeNewBuffer t).outside = s.outside := by
  simp only [State.writeNewBuffer]
  split
  · rename_i n t h
    simp [s.obtain_outside n t h]
  · simp

@[simp] theorem State.writeOverClean_outside (t : Translation) (c : Index) :
    (s.writeOverClean t c).outside = s.outside := by
  simp only [State.writeOverClean]
  split <;> simp

@[simp] theorem State.writeAccess_outside (t : Translation) : (s.writeAccess t).outside = s.outside := by
  simp only [State.writeAccess]
  (repeat' split) <;> simp

@[simp] theorem State.readAccess_outside (t : Translation) : (s.readAccess t).outside = s.outside := by
  simp [State.readAccess]

@[simp] theorem State.dispatch_outside : (s.dispatch).outside = s.outside := by
  simp only [State.dispatch]
  (repeat' split) <;> simp

@[simp] theorem State.dispatchByMode_outside : (s.dispatchByMode).outside = s.outside := by
  simp only [State.dispatchByMode]
  (repeat' split) <;> simp

@[simp] theorem State.leaveModeHold_outside : (s.leaveModeHold).outside = s.outside := by
  simp only [State.leaveModeHold]
  split <;> simp

@[simp] theorem State.handBack_outside : (s.handBack).outside = s.outside := by
  simp only [State.handBack]
  split <;> simp

@[simp] theorem State.withdrawAccess_outside : (s.withdrawAccess).outside = s.outside := by
  simp only [State.withdrawAccess]
  split <;> simp

@[simp] theorem State.testWaitingWrite_outside (t : Translation) : (s.testWaitingWrite t).outside = s.outside := by
  simp only [State.testWaitingWrite]
  (repeat' split) <;> simp

@[simp] theorem State.testWaitingRead_outside (r : ReadRecord) : (s.testWaitingRead r).outside = s.outside := by
  simp only [State.testWaitingRead]
  (repeat' split) <;> simp

@[simp] theorem State.testWaiting_outside : (s.testWaiting).outside = s.outside := by
  simp only [State.testWaiting]
  split <;> simp

@[simp] theorem State.setSlot_outside (st : SlotState) : (s.setSlot st).outside = s.outside := rfl
@[simp] theorem State.fillInArea_outside (k : Nat) (bs : List Byte) :
    (s.fillInArea k bs).outside = s.outside := by simp only [State.fillInArea, State.slot_outside]
@[simp] theorem State.clearInArea_outside : (s.clearInArea).outside = s.outside := rfl
@[simp] theorem State.finishWith_outside (steps : List SeqStep) (outLength received : Nat) (outcome : SeqOutcome) (ending : Nat) (index : Option Nat) :
    (s.finishWith steps outLength received outcome ending index).outside = s.outside := by
  simp [State.finishWith]

@[simp] theorem State.finishUnbegun_outside (outcome : SeqOutcome) :
    (s.finishUnbegun outcome).outside = s.outside := by
  simp only [State.finishUnbegun]
  split <;> simp

@[simp] theorem State.nextStep_outside (steps : List SeqStep) (outLength received retries current outPos : Nat) (abort : Bool) :
    (s.nextStep steps outLength received retries current outPos abort).outside = s.outside := by
  simp only [State.nextStep]
  (repeat' split) <;> simp

@[simp] theorem State.cutSequence_outside (outcome : SeqOutcome) (p : Progress) :
    (s.cutSequence outcome p).outside = s.outside := by
  simp only [State.cutSequence]
  (repeat' split) <;> simp

@[simp] theorem State.loseSequence_outside (p : Progress) : (s.loseSequence p).outside = s.outside := by
  simp only [State.loseSequence]
  (repeat' split) <;> simp

@[simp] theorem State.abortSlot_outside : (s.abortSlot).outside = s.outside := by
  simp only [State.abortSlot]
  split <;> simp

theorem State.endVerify_outside (n : Index) (f : State → ReadRecord → State) (hf : ∀ s r, (f s r).outside = s.outside) :
    (s.endVerify n f).outside = s.outside := by
  simp only [State.endVerify]
  split <;> simp [hf]

@[simp] theorem State.abandonVerify_outside (n : Index) : (s.abandonVerify n).outside = s.outside := by
  simp only [State.abandonVerify]
  split <;> simp [State.endVerify_outside]

@[simp] theorem State.freeOtherClean_outside (n d : Index) (p : Nat) : (s.freeOtherClean n d p).outside = s.outside :=
  foldl_outside _ (fun s m => State.freeIf_outside s _ m) _ s

@[simp] theorem State.flushClean_outside (n : Index) : (s.flushClean n).outside = s.outside := by
  simp only [State.flushClean]
  split <;> simp

@[simp] theorem State.commitEnds_outside (n : Index) : (s.commitEnds n).outside = s.outside := by
  simp only [State.commitEnds]
  (repeat' split) <;> simp [foldl_outside _ State.abandonVerify_outside]

@[simp] theorem State.retryCommit_outside (n : Index) (outcome : Byte) :
    (s.retryCommit n outcome).outside = s.outside := by
  simp only [State.retryCommit]
  (repeat' split) <;> simp

@[simp] theorem State.enterSilent_outside (d : Index) (own : Option Index) (cause : HoldCause) (kind : FaultKind) :
    (s.enterSilent d own cause kind).outside = s.outside := by
  simp only [State.enterSilent, State.select_outside]
  rw [foldl_outside, State.testWaiting_outside, foldl_outside]
  · simp
  · intro s n
    split <;> simp
  · intro s n
    split <;> simp [State.endVerify_outside]

@[simp] theorem State.nackImmediate_outside (d : Index) (own : Option Index) (reopened : Bool) :
    (s.nackImmediate d own reopened).outside = s.outside := by
  simp only [State.nackImmediate]
  (repeat' split) <;> simp

@[simp] theorem State.commitNacked_outside (n d : Index) (reopened : Bool) :
    (s.commitNacked n d reopened).outside = s.outside := by
  simp only [State.commitNacked]
  (repeat' split) <;> simp

@[simp] theorem State.runsGoOn_outside (n : Index) (forced : Bool) (runs : List Run) :
    (s.runsGoOn n forced runs).outside = s.outside := by
  simp only [State.runsGoOn]
  split <;> simp

@[simp] theorem State.failRecordRead_outside : (s.failRecordRead).outside = s.outside := by
  simp [State.failRecordRead]

@[simp] theorem State.presentRecordRead_outside : (s.presentRecordRead).outside = s.outside := by
  simp only [State.presentRecordRead]
  split <;> simp

@[simp] theorem State.retryRecordRead_outside : (s.retryRecordRead).outside = s.outside := by
  simp only [State.retryRecordRead]
  (repeat' split) <;> simp

@[simp] theorem State.nackRecordRead_outside : (s.nackRecordRead).outside = s.outside := by
  simp [State.nackRecordRead]

@[simp] theorem State.dropRecordRead_outside : (s.dropRecordRead).outside = s.outside := by
  simp [State.dropRecordRead]

@[simp] theorem State.countGrant_outside (g : Grant) : (s.countGrant g).outside = s.outside := by
  simp only [State.countGrant]
  split <;> simp

@[simp] theorem State.beginTransaction_outside (job : Job) (target : BitVec 7) (read : Bool)
    (remaining : Option Nat) (toSend : List Byte) :
    (s.beginTransaction job target read remaining toSend).outside = s.outside := by
  simp [State.beginTransaction]

@[simp] theorem State.popHostRead_outside : (s.popHostRead).outside = s.outside := rfl
@[simp] theorem State.setDue_outside (d : Index) (due : Bool) : (s.setDue d due).outside = s.outside := by
  simp only [State.setDue]
  split <;> simp

@[simp] theorem State.grantCommit_outside (n : Index) : (s.grantCommit n).outside = s.outside := by
  simp only [State.grantCommit]
  (repeat' split) <;> simp

@[simp] theorem State.grantStream_outside (d : Index) (x : Nat) : (s.grantStream d x).outside = s.outside := by
  simp only [State.grantStream]
  (repeat' split) <;> simp

@[simp] theorem State.grantVerify_outside (n : Index) : (s.grantVerify n).outside = s.outside := by
  simp only [State.grantVerify]
  (repeat' split) <;> simp

@[simp] theorem State.grantProbe_outside : (s.grantProbe).outside = s.outside := by
  simp only [State.grantProbe]
  split <;> simp

@[simp] theorem State.grantDirect_outside : (s.grantDirect).outside = s.outside := by
  simp only [State.grantDirect]
  (repeat' split) <;> simp

@[simp] theorem State.grantTo_outside (g : Grant) : (s.grantTo g).outside = s.outside := by
  simp only [State.grantTo]
  (repeat' split) <;> simp

@[simp] theorem State.grant_outside (g : Grant) (status : BusStatus) : (s.grant g status).outside = s.outside := by
  simp [State.grant]

@[simp] theorem State.requeueHead_outside (n : Index) : (s.requeueHead n).outside = s.outside := by
  simp [State.requeueHead]

@[simp] theorem State.stuckOutcome_outside (j : Job) : (s.stuckOutcome j).outside = s.outside := by
  unfold State.stuckOutcome
  split <;> simp [State.endVerify_outside, State.streamFails_outside]

@[simp] theorem State.stuckAnswer_outside (q : HostReadRequest) : (s.stuckAnswer q).outside = s.outside := by
  unfold State.stuckAnswer
  (repeat' split) <;> simp [State.endVerify_outside]

@[simp] theorem State.stickBus_outside : (s.stickBus).outside = s.outside := by
  simp [State.stickBus]

@[simp] theorem State.enterStuck_outside (line : Line) : (s.enterStuck line).outside = s.outside := by
  simp only [State.enterStuck]
  (repeat' split) <;> simp [foldl_outside _ State.stuckAnswer_outside]

@[simp] theorem State.abandonIfHeld_outside : (s.abandonIfHeld).outside = s.outside := by
  simp only [State.abandonIfHeld]
  (repeat' split) <;> simp

@[simp] theorem State.enterReading_outside : (s.enterReading).outside = s.outside := by
  simp [State.enterReading]

@[simp] theorem State.leaveSequence_outside : (s.leaveSequence).outside = s.outside := by
  simp only [State.leaveSequence]
  split <;> simp

@[simp] theorem State.advanceReload_outside : (s.advanceReload).outside = s.outside := by
  simp only [State.advanceReload]
  (repeat' split) <;> simp

@[simp] theorem State.enterSafe_outside : (s.enterSafe).outside = s.outside := by
  simp [State.enterSafe]

@[simp] theorem State.endFlush_outside : (s.endFlush).outside = s.outside := by
  simp only [State.endFlush]
  (repeat' split) <;> simp

@[simp] theorem State.endFlushWatch_outside : (s.endFlushWatch).outside = s.outside := by
  simp only [State.endFlushWatch]
  split <;> simp

@[simp] theorem State.rejectLayout_outside (x : Rejection) : (s.rejectLayout x).outside = s.outside := by
  simp [State.rejectLayout]

@[simp] theorem State.closeRecordRead_outside : (s.closeRecordRead).outside = s.outside := by
  simp only [State.closeRecordRead]
  split <;> simp

@[simp] theorem State.clearPasses_outside : (s.clearPasses).outside = s.outside := by
  simp only [State.clearPasses]
  (repeat' split) <;> simp

@[simp] theorem State.settle_outside : (s.settle).outside = s.outside := by
  simp [State.settle]

@[simp] theorem State.runCompleted_outside (n : Index) (h : PageHold) (forced : Bool) (rest : List Run) :
    (s.runCompleted n h forced rest).outside = s.outside := by
  simp only [State.runCompleted]
  split <;> simp

@[simp] theorem State.runRefused_outside (n : Index) (h : PageHold) (index : Nat) :
    (s.runRefused n h index).outside = s.outside := by
  simp only [State.runRefused]
  split <;> simp

@[simp] theorem State.fillMerged_outside (n : Index) (h : PageHold) (forced : Bool) (span : Run) (bytes : List Byte) :
    (s.fillMerged n h forced span bytes).outside = s.outside := by
  simp [State.fillMerged]

@[simp] theorem State.fillChecked_outside (n : Index) (h : PageHold) (forced : Bool) (bytes : List Byte) :
    (s.fillChecked n h forced bytes).outside = s.outside := by
  simp [State.fillChecked]

@[simp] theorem State.fillMismatched_outside (n : Index) (h : PageHold) (bytes : List Byte) :
    (s.fillMismatched n h bytes).outside = s.outside := by
  simp [State.fillMismatched]

@[simp] theorem State.fillCompleted_outside (n : Index) (h : PageHold) (forced : Bool) (bytes : List Byte) :
    (s.fillCompleted n h forced bytes).outside = s.outside := by
  simp only [State.fillCompleted]
  (repeat' split) <;> simp

@[simp] theorem State.openNacked_outside (d : Index) (r : ReadRecord) : (s.openNacked d r).outside = s.outside := by
  simp only [State.openNacked]
  split <;> simp

@[simp] theorem State.streamPast_outside (p : StreamPos) : (s.streamPast p).outside = s.outside := by
  simp only [State.streamPast]
  split <;> simp

@[simp] theorem State.streamFree_outside : (s.streamFree).outside = s.outside := by
  simp only [State.streamFree]
  split <;> simp

@[simp] theorem State.byteForRead_outside (p : StreamPos) (r : ReadRecord) (v : Byte) :
    (s.byteForRead p r v).outside = s.outside := by
  simp [State.byteForRead]

@[simp] theorem State.byteAhead_outside (p : StreamPos) (v : Byte) : (s.byteAhead p v).outside = s.outside := by
  simp only [State.byteAhead]
  (repeat' split) <;> simp

@[simp] theorem State.closingByte_outside (p : StreamPos) (v : Byte) : (s.closingByte p v).outside = s.outside := by
  simp only [State.closingByte]
  simp

@[simp] theorem State.verifyMatched_outside (n : Index) (h : PageHold) :
    (s.verifyMatched n h).outside = s.outside := by
  simp only [State.verifyMatched]
  split <;> simp

@[simp] theorem State.verifyMismatched_outside (n : Index) (h : PageHold) (start : Nat) (bytes : List Byte) :
    (s.verifyMismatched n h start bytes).outside = s.outside := by
  simp only [State.verifyMismatched]
  split <;> simp

@[simp] theorem State.requestVerify_outside (n : Index) : (s.requestVerify n).outside = s.outside := by
  simp only [State.requestVerify]
  (repeat' split) <;> simp

@[simp] theorem State.retryVerify_outside (n : Index) (outcome : Byte) : (s.retryVerify n outcome).outside = s.outside := by
  simp only [State.retryVerify]
  (repeat' split) <;> simp [State.endVerify_outside]

@[simp] theorem State.verifyNackedImmediate_outside (n d : Index) (reopened : Bool) :
    (s.verifyNackedImmediate n d reopened).outside = s.outside := by
  simp only [State.verifyNackedImmediate]
  split <;> simp

@[simp] theorem State.verifyNackedCycled_outside (n d : Index) : (s.verifyNackedCycled n d).outside = s.outside := by
  simp only [State.verifyNackedCycled]
  split <;> simp

@[simp] theorem State.requestVerifies_outside (d : Index) : (s.requestVerifies d).outside = s.outside :=
  foldl_outside _ (fun s n => by split <;> simp) _ s

@[simp] theorem State.resumeCommit_outside (d : Index) : (s.resumeCommit d).outside = s.outside := by
  simp only [State.resumeCommit]
  (repeat' split) <;> simp

@[simp] theorem State.probeAcknowledged_outside (d : Index) : (s.probeAcknowledged d).outside = s.outside := by
  simp only [State.probeAcknowledged]
  split <;> simp

@[simp] theorem State.nextProbe_outside (d : Index) (period : Nat) : (s.nextProbe d period).outside = s.outside := by
  simp [State.nextProbe]

@[simp] theorem State.probeNacked_outside (d : Index) : (s.probeNacked d).outside = s.outside := by
  simp only [State.probeNacked]
  (repeat' split) <;> simp

@[simp] theorem State.ackIfAddressed_outside (d : Option Index) (p : Progress) :
    (s.ackIfAddressed d p).outside = s.outside := by
  simp only [State.ackIfAddressed]
  (repeat' split) <;> simp

@[simp] theorem State.keepPartial_outside (n : Index) (bytes : List Byte) :
    (s.keepPartial n bytes).outside = s.outside := by
  simp [State.keepPartial]

@[simp] theorem State.cutOff_outside (j : Job) (c : CutOff) (p : Progress) : (s.cutOff j c p).outside = s.outside := by
  unfold State.cutOff
  (repeat' split) <;> simp [State.streamFails_outside]

@[simp] theorem State.clearFails_outside (c : ClearCause) : (s.clearFails c).outside = s.outside := by
  simp only [State.clearFails]
  split <;> simp

@[simp] theorem State.requeue_outside (n : Index) (forced : Bool) : (s.requeue n forced).outside = s.outside := by
  simp [State.requeue]

@[simp] theorem State.takeSubmission_outside (steps : List SeqStep) (args : List Byte) :
    (s.takeSubmission steps args).outside = s.outside := by
  simp only [State.takeSubmission]
  split <;> simp

@[simp] theorem State.beginReload_outside : (s.beginReload).outside = s.outside := by
  simp [State.beginReload]

@[simp] theorem State.attemptNacked_outside (o : AttemptNack) : (s.attemptNacked o).outside = s.outside := by
  simp only [State.attemptNacked]
  split <;> simp

@[simp] theorem State.setPfw_outside (level : Bool) : (s.setPfw level).outside = s.outside := rfl
@[simp] theorem State.abandonReload_outside : (s.abandonReload).outside = s.outside := by
  simp only [State.abandonReload]
  split <;> simp

@[simp] theorem State.beginFlush_outside : (s.beginFlush).outside = s.outside := by
  simp only [State.beginFlush]
  (repeat' split) <;> simp

end Sys2Proof.Machine
end

