-- ==== Sys2Proof/Laws/Frames.lean ====
section
/-! SUPPORT. The frame of each shared operation, block by block: the blocks whose records it leaves alone. -/

namespace Sys2Proof.Machine

/-- A fold of operations that leave a part `g` of the state alone does so too. -/
theorem foldl_keeps {α β : Type} (g : State → β) (f : State → α → State) (hf : ∀ s a, g (f s a) = g s) (xs : List α)
    (s : State) : g (xs.foldl f s) = g s := by
  induction xs generalizing s with
  | nil => rfl
  | cons x xs ih => rw [List.foldl_cons, ih, hf]

variable (s : State)

@[simp] theorem State.ackDevice_port (d : Index) : (s.ackDevice d).port = s.port := by
  simp only [State.ackDevice]
  split <;> simp

@[simp] theorem State.ackDevice_table (d : Index) : (s.ackDevice d).table = s.table := by
  simp only [State.ackDevice]
  split <;> simp

@[simp] theorem State.ackDevice_reads (d : Index) : (s.ackDevice d).reads = s.reads := by
  simp only [State.ackDevice]
  split <;> simp

@[simp] theorem State.ackDevice_bus (d : Index) : (s.ackDevice d).bus = s.bus := by
  simp only [State.ackDevice]
  split <;> simp

@[simp] theorem State.ackDevice_slot (d : Index) : (s.ackDevice d).slot = s.slot := by
  simp only [State.ackDevice]
  split <;> simp

@[simp] theorem State.ackDevice_control (d : Index) : (s.ackDevice d).control = s.control := by
  simp only [State.ackDevice]
  split <;> simp

@[simp] theorem State.ackDevice_events (d : Index) : (s.ackDevice d).events = s.events := by
  simp only [State.ackDevice]
  split <;> simp

@[simp] theorem State.countNack_port (d : Index) : (s.countNack d).port = s.port := by
  simp [State.countNack]

@[simp] theorem State.countNack_table (d : Index) : (s.countNack d).table = s.table := by
  simp [State.countNack]

@[simp] theorem State.countNack_reads (d : Index) : (s.countNack d).reads = s.reads := by
  simp [State.countNack]

@[simp] theorem State.countNack_bus (d : Index) : (s.countNack d).bus = s.bus := by
  simp [State.countNack]

@[simp] theorem State.countNack_slot (d : Index) : (s.countNack d).slot = s.slot := by
  simp [State.countNack]

@[simp] theorem State.countNack_control (d : Index) : (s.countNack d).control = s.control := by
  simp [State.countNack]

@[simp] theorem State.countNack_events (d : Index) : (s.countNack d).events = s.events := by
  simp [State.countNack]

@[simp] theorem State.answer_table (a : HostRequest → Answer) : (s.answer a).table = s.table := by
  simp only [State.answer]
  split <;> simp

@[simp] theorem State.answer_engine (a : HostRequest → Answer) : (s.answer a).engine = s.engine := by
  simp only [State.answer]
  split <;> simp

@[simp] theorem State.answer_reads (a : HostRequest → Answer) : (s.answer a).reads = s.reads := by
  simp only [State.answer]
  split <;> simp

@[simp] theorem State.answer_bus (a : HostRequest → Answer) : (s.answer a).bus = s.bus := by
  simp only [State.answer]
  split <;> simp

@[simp] theorem State.answer_slot (a : HostRequest → Answer) : (s.answer a).slot = s.slot := by
  simp only [State.answer]
  split <;> simp

@[simp] theorem State.answer_control (a : HostRequest → Answer) : (s.answer a).control = s.control := by
  simp only [State.answer]
  split <;> simp

@[simp] theorem State.answer_events (a : HostRequest → Answer) : (s.answer a).events = s.events := by
  simp only [State.answer]
  split <;> simp

@[simp] theorem State.serveRead_table (bs : List Byte) : (s.serveRead bs).table = s.table := by
  simp [State.serveRead]

@[simp] theorem State.serveRead_engine (bs : List Byte) : (s.serveRead bs).engine = s.engine := by
  simp [State.serveRead]

@[simp] theorem State.serveRead_reads (bs : List Byte) : (s.serveRead bs).reads = s.reads := by
  simp [State.serveRead]

@[simp] theorem State.serveRead_bus (bs : List Byte) : (s.serveRead bs).bus = s.bus := by
  simp [State.serveRead]

@[simp] theorem State.serveRead_slot (bs : List Byte) : (s.serveRead bs).slot = s.slot := by
  simp [State.serveRead]

@[simp] theorem State.serveRead_control (bs : List Byte) : (s.serveRead bs).control = s.control := by
  simp [State.serveRead]

@[simp] theorem State.serveRead_events (bs : List Byte) : (s.serveRead bs).events = s.events := by
  simp [State.serveRead]

@[simp] theorem State.acceptWrite_table : s.acceptWrite.table = s.table := by
  simp [State.acceptWrite]

@[simp] theorem State.acceptWrite_engine : s.acceptWrite.engine = s.engine := by
  simp [State.acceptWrite]

@[simp] theorem State.acceptWrite_reads : s.acceptWrite.reads = s.reads := by
  simp [State.acceptWrite]

@[simp] theorem State.acceptWrite_bus : s.acceptWrite.bus = s.bus := by
  simp [State.acceptWrite]

@[simp] theorem State.acceptWrite_slot : s.acceptWrite.slot = s.slot := by
  simp [State.acceptWrite]

@[simp] theorem State.acceptWrite_control : s.acceptWrite.control = s.control := by
  simp [State.acceptWrite]

@[simp] theorem State.acceptWrite_events : s.acceptWrite.events = s.events := by
  simp [State.acceptWrite]

@[simp] theorem State.refuse_table (fault : Option FaultInfo) : (s.refuse fault).table = s.table := by
  simp only [State.refuse]
  (repeat' split) <;> simp

@[simp] theorem State.refuse_engine (fault : Option FaultInfo) : (s.refuse fault).engine = s.engine := by
  simp only [State.refuse]
  (repeat' split) <;> simp

@[simp] theorem State.refuse_reads (fault : Option FaultInfo) : (s.refuse fault).reads = s.reads := by
  simp only [State.refuse]
  (repeat' split) <;> simp

@[simp] theorem State.refuse_bus (fault : Option FaultInfo) : (s.refuse fault).bus = s.bus := by
  simp only [State.refuse]
  (repeat' split) <;> simp

@[simp] theorem State.refuse_slot (fault : Option FaultInfo) : (s.refuse fault).slot = s.slot := by
  simp only [State.refuse]
  (repeat' split) <;> simp

@[simp] theorem State.refuse_control (fault : Option FaultInfo) : (s.refuse fault).control = s.control := by
  simp only [State.refuse]
  (repeat' split) <;> simp

@[simp] theorem State.setHold_table (h : Hold) : (s.setHold h).table = s.table := by
  simp only [State.setHold]
  split <;> simp

@[simp] theorem State.setHold_engine (h : Hold) : (s.setHold h).engine = s.engine := by
  simp only [State.setHold]
  split <;> simp

@[simp] theorem State.setHold_reads (h : Hold) : (s.setHold h).reads = s.reads := by
  simp only [State.setHold]
  split <;> simp

@[simp] theorem State.setHold_bus (h : Hold) : (s.setHold h).bus = s.bus := by
  simp only [State.setHold]
  split <;> simp

@[simp] theorem State.setHold_slot (h : Hold) : (s.setHold h).slot = s.slot := by
  simp only [State.setHold]
  split <;> simp

@[simp] theorem State.setHold_control (h : Hold) : (s.setHold h).control = s.control := by
  simp only [State.setHold]
  split <;> simp

@[simp] theorem State.setHold_events (h : Hold) : (s.setHold h).events = s.events := by
  simp only [State.setHold]
  split <;> simp

@[simp] theorem State.setRead_table (r : ReadRecord) : (s.setRead r).table = s.table := by
  simp [State.setRead]

@[simp] theorem State.setRead_engine (r : ReadRecord) : (s.setRead r).engine = s.engine := by
  simp [State.setRead]

@[simp] theorem State.setRead_reads (r : ReadRecord) : (s.setRead r).reads = s.reads := by
  simp [State.setRead]

@[simp] theorem State.setRead_bus (r : ReadRecord) : (s.setRead r).bus = s.bus := by
  simp [State.setRead]

@[simp] theorem State.setRead_slot (r : ReadRecord) : (s.setRead r).slot = s.slot := by
  simp [State.setRead]

@[simp] theorem State.setRead_control (r : ReadRecord) : (s.setRead r).control = s.control := by
  simp [State.setRead]

@[simp] theorem State.setRead_events (r : ReadRecord) : (s.setRead r).events = s.events := by
  simp [State.setRead]

@[simp] theorem State.freeBuffer_port (n : Index) : (s.freeBuffer n).port = s.port := by
  simp only [State.freeBuffer]
  (repeat' split) <;> simp

@[simp] theorem State.freeBuffer_engine (n : Index) : (s.freeBuffer n).engine = s.engine := by
  simp only [State.freeBuffer]
  (repeat' split) <;> simp

@[simp] theorem State.freeBuffer_reads (n : Index) : (s.freeBuffer n).reads = s.reads := by
  simp only [State.freeBuffer]
  (repeat' split) <;> simp

@[simp] theorem State.freeBuffer_bus (n : Index) : (s.freeBuffer n).bus = s.bus := by
  simp only [State.freeBuffer]
  (repeat' split) <;> simp

@[simp] theorem State.freeBuffer_slot (n : Index) : (s.freeBuffer n).slot = s.slot := by
  simp only [State.freeBuffer]
  (repeat' split) <;> simp

@[simp] theorem State.freeBuffer_control (n : Index) : (s.freeBuffer n).control = s.control := by
  simp only [State.freeBuffer]
  (repeat' split) <;> simp

@[simp] theorem State.freeBuffer_events (n : Index) : (s.freeBuffer n).events = s.events := by
  simp only [State.freeBuffer]
  (repeat' split) <;> simp

@[simp] theorem State.freeIf_port (st : BufferState) (n : Index) : (s.freeIf st n).port = s.port := by
  simp only [State.freeIf]
  split <;> simp

@[simp] theorem State.freeIf_engine (st : BufferState) (n : Index) : (s.freeIf st n).engine = s.engine := by
  simp only [State.freeIf]
  split <;> simp

@[simp] theorem State.freeIf_reads (st : BufferState) (n : Index) : (s.freeIf st n).reads = s.reads := by
  simp only [State.freeIf]
  split <;> simp

@[simp] theorem State.freeIf_bus (st : BufferState) (n : Index) : (s.freeIf st n).bus = s.bus := by
  simp only [State.freeIf]
  split <;> simp

@[simp] theorem State.freeIf_slot (st : BufferState) (n : Index) : (s.freeIf st n).slot = s.slot := by
  simp only [State.freeIf]
  split <;> simp

@[simp] theorem State.freeIf_control (st : BufferState) (n : Index) : (s.freeIf st n).control = s.control := by
  simp only [State.freeIf]
  split <;> simp

@[simp] theorem State.freeIf_events (st : BufferState) (n : Index) : (s.freeIf st n).events = s.events := by
  simp only [State.freeIf]
  split <;> simp

@[simp] theorem State.cleanRelease_port : s.cleanRelease.port = s.port :=
  foldl_keeps (State.port) _ (fun s n => State.freeIf_port s _ n) _ s

@[simp] theorem State.cleanRelease_engine : s.cleanRelease.engine = s.engine :=
  foldl_keeps (State.engine) _ (fun s n => State.freeIf_engine s _ n) _ s

@[simp] theorem State.cleanRelease_reads : s.cleanRelease.reads = s.reads :=
  foldl_keeps (State.reads) _ (fun s n => State.freeIf_reads s _ n) _ s

@[simp] theorem State.cleanRelease_bus : s.cleanRelease.bus = s.bus :=
  foldl_keeps (State.bus) _ (fun s n => State.freeIf_bus s _ n) _ s

@[simp] theorem State.cleanRelease_slot : s.cleanRelease.slot = s.slot :=
  foldl_keeps (State.slot) _ (fun s n => State.freeIf_slot s _ n) _ s

@[simp] theorem State.cleanRelease_control : s.cleanRelease.control = s.control :=
  foldl_keeps (State.control) _ (fun s n => State.freeIf_control s _ n) _ s

@[simp] theorem State.cleanRelease_events : s.cleanRelease.events = s.events :=
  foldl_keeps (State.events) _ (fun s n => State.freeIf_events s _ n) _ s

@[simp] theorem State.holdBuffer_port (cause : HoldCause) (n : Index) : (s.holdBuffer cause n).port = s.port := by
  simp only [State.holdBuffer]
  split <;> simp

@[simp] theorem State.holdBuffer_reads (cause : HoldCause) (n : Index) : (s.holdBuffer cause n).reads = s.reads := by
  simp only [State.holdBuffer]
  split <;> simp

@[simp] theorem State.holdBuffer_bus (cause : HoldCause) (n : Index) : (s.holdBuffer cause n).bus = s.bus := by
  simp only [State.holdBuffer]
  split <;> simp

@[simp] theorem State.holdBuffer_slot (cause : HoldCause) (n : Index) : (s.holdBuffer cause n).slot = s.slot := by
  simp only [State.holdBuffer]
  split <;> simp

@[simp] theorem State.holdBuffer_control (cause : HoldCause) (n : Index) :
    (s.holdBuffer cause n).control = s.control := by
  simp only [State.holdBuffer]
  split <;> simp

@[simp] theorem State.openBuffer_port (n d : Index) (p : Nat) (ph : Phase) :
    (s.openBuffer n d p ph).port = s.port := by
  simp [State.openBuffer]

@[simp] theorem State.openBuffer_engine (n d : Index) (p : Nat) (ph : Phase) :
    (s.openBuffer n d p ph).engine = s.engine := by
  simp [State.openBuffer]

@[simp] theorem State.openBuffer_reads (n d : Index) (p : Nat) (ph : Phase) :
    (s.openBuffer n d p ph).reads = s.reads := by
  simp [State.openBuffer]

@[simp] theorem State.openBuffer_bus (n d : Index) (p : Nat) (ph : Phase) : (s.openBuffer n d p ph).bus = s.bus := by
  simp [State.openBuffer]

@[simp] theorem State.openBuffer_slot (n d : Index) (p : Nat) (ph : Phase) :
    (s.openBuffer n d p ph).slot = s.slot := by
  simp [State.openBuffer]

@[simp] theorem State.openBuffer_control (n d : Index) (p : Nat) (ph : Phase) :
    (s.openBuffer n d p ph).control = s.control := by
  simp [State.openBuffer]

@[simp] theorem State.openBuffer_events (n d : Index) (p : Nat) (ph : Phase) :
    (s.openBuffer n d p ph).events = s.events := by
  simp [State.openBuffer]

@[simp] theorem State.mergeWrite_port (n : Index) (t : Translation) (data : List Byte) :
    (s.mergeWrite n t data).port = s.port := by
  simp [State.mergeWrite]

@[simp] theorem State.mergeWrite_engine (n : Index) (t : Translation) (data : List Byte) :
    (s.mergeWrite n t data).engine = s.engine := by
  simp [State.mergeWrite]

@[simp] theorem State.mergeWrite_reads (n : Index) (t : Translation) (data : List Byte) :
    (s.mergeWrite n t data).reads = s.reads := by
  simp [State.mergeWrite]

@[simp] theorem State.mergeWrite_bus (n : Index) (t : Translation) (data : List Byte) :
    (s.mergeWrite n t data).bus = s.bus := by
  simp [State.mergeWrite]

@[simp] theorem State.mergeWrite_slot (n : Index) (t : Translation) (data : List Byte) :
    (s.mergeWrite n t data).slot = s.slot := by
  simp [State.mergeWrite]

@[simp] theorem State.mergeWrite_control (n : Index) (t : Translation) (data : List Byte) :
    (s.mergeWrite n t data).control = s.control := by
  simp [State.mergeWrite]

@[simp] theorem State.mergeWrite_events (n : Index) (t : Translation) (data : List Byte) :
    (s.mergeWrite n t data).events = s.events := by
  simp [State.mergeWrite]

@[simp] theorem State.convert_port (n : Index) (t : Translation) : (s.convert n t).port = s.port := by
  simp [State.convert]

@[simp] theorem State.convert_engine (n : Index) (t : Translation) : (s.convert n t).engine = s.engine := by
  simp [State.convert]

@[simp] theorem State.convert_reads (n : Index) (t : Translation) : (s.convert n t).reads = s.reads := by
  simp [State.convert]

@[simp] theorem State.convert_bus (n : Index) (t : Translation) : (s.convert n t).bus = s.bus := by
  simp [State.convert]

@[simp] theorem State.convert_slot (n : Index) (t : Translation) : (s.convert n t).slot = s.slot := by
  simp [State.convert]

@[simp] theorem State.convert_control (n : Index) (t : Translation) : (s.convert n t).control = s.control := by
  simp [State.convert]

@[simp] theorem State.convert_events (n : Index) (t : Translation) : (s.convert n t).events = s.events := by
  simp [State.convert]

@[simp] theorem State.touchClean_port (n : Index) : (s.touchClean n).port = s.port := by
  simp [State.touchClean]

@[simp] theorem State.touchClean_engine (n : Index) : (s.touchClean n).engine = s.engine := by
  simp [State.touchClean]

@[simp] theorem State.touchClean_reads (n : Index) : (s.touchClean n).reads = s.reads := by
  simp [State.touchClean]

@[simp] theorem State.touchClean_bus (n : Index) : (s.touchClean n).bus = s.bus := by
  simp [State.touchClean]

@[simp] theorem State.touchClean_slot (n : Index) : (s.touchClean n).slot = s.slot := by
  simp [State.touchClean]

@[simp] theorem State.touchClean_control (n : Index) : (s.touchClean n).control = s.control := by
  simp [State.touchClean]

@[simp] theorem State.touchClean_events (n : Index) : (s.touchClean n).events = s.events := by
  simp [State.touchClean]

@[simp] theorem State.joinRequest_port (n : Index) : (s.joinRequest n).port = s.port := by
  simp only [State.joinRequest]
  split <;> simp

@[simp] theorem State.joinRequest_table (n : Index) : (s.joinRequest n).table = s.table := by
  simp only [State.joinRequest]
  split <;> simp

@[simp] theorem State.joinRequest_reads (n : Index) : (s.joinRequest n).reads = s.reads := by
  simp only [State.joinRequest]
  split <;> simp

@[simp] theorem State.joinRequest_bus (n : Index) : (s.joinRequest n).bus = s.bus := by
  simp only [State.joinRequest]
  split <;> simp

@[simp] theorem State.joinRequest_slot (n : Index) : (s.joinRequest n).slot = s.slot := by
  simp only [State.joinRequest]
  split <;> simp

@[simp] theorem State.joinRequest_control (n : Index) : (s.joinRequest n).control = s.control := by
  simp only [State.joinRequest]
  split <;> simp

@[simp] theorem State.joinRequest_events (n : Index) : (s.joinRequest n).events = s.events := by
  simp only [State.joinRequest]
  split <;> simp

@[simp] theorem State.takeBuffer_port (n : Index) : (s.takeBuffer n).port = s.port := by
  simp only [State.takeBuffer]
  (repeat' split) <;> simp

@[simp] theorem State.takeBuffer_reads (n : Index) : (s.takeBuffer n).reads = s.reads := by
  simp only [State.takeBuffer]
  (repeat' split) <;> simp

@[simp] theorem State.takeBuffer_bus (n : Index) : (s.takeBuffer n).bus = s.bus := by
  simp only [State.takeBuffer]
  (repeat' split) <;> simp

@[simp] theorem State.takeBuffer_slot (n : Index) : (s.takeBuffer n).slot = s.slot := by
  simp only [State.takeBuffer]
  (repeat' split) <;> simp

@[simp] theorem State.takeBuffer_control (n : Index) : (s.takeBuffer n).control = s.control := by
  simp only [State.takeBuffer]
  (repeat' split) <;> simp

@[simp] theorem State.takeBuffer_events (n : Index) : (s.takeBuffer n).events = s.events := by
  simp only [State.takeBuffer]
  (repeat' split) <;> simp

@[simp] theorem State.select_port : s.select.port = s.port :=
  foldl_keeps (State.port) _ (fun s n => by split <;> simp) _ s

@[simp] theorem State.select_reads : s.select.reads = s.reads :=
  foldl_keeps (State.reads) _ (fun s n => by split <;> simp) _ s

@[simp] theorem State.select_bus : s.select.bus = s.bus :=
  foldl_keeps (State.bus) _ (fun s n => by split <;> simp) _ s

@[simp] theorem State.select_slot : s.select.slot = s.slot :=
  foldl_keeps (State.slot) _ (fun s n => by split <;> simp) _ s

@[simp] theorem State.select_control : s.select.control = s.control :=
  foldl_keeps (State.control) _ (fun s n => by split <;> simp) _ s

@[simp] theorem State.select_events : s.select.events = s.events :=
  foldl_keeps (State.events) _ (fun s n => by split <;> simp) _ s

@[simp] theorem State.enqueue_port (n : Index) : (s.enqueue n).port = s.port := by
  simp only [State.enqueue]
  split <;> simp

@[simp] theorem State.enqueue_engine (n : Index) : (s.enqueue n).engine = s.engine := by
  simp only [State.enqueue]
  split <;> simp

@[simp] theorem State.enqueue_reads (n : Index) : (s.enqueue n).reads = s.reads := by
  simp only [State.enqueue]
  split <;> simp

@[simp] theorem State.enqueue_bus (n : Index) : (s.enqueue n).bus = s.bus := by
  simp only [State.enqueue]
  split <;> simp

@[simp] theorem State.enqueue_slot (n : Index) : (s.enqueue n).slot = s.slot := by
  simp only [State.enqueue]
  split <;> simp

@[simp] theorem State.enqueue_control (n : Index) : (s.enqueue n).control = s.control := by
  simp only [State.enqueue]
  split <;> simp

@[simp] theorem State.enqueue_events (n : Index) : (s.enqueue n).events = s.events := by
  simp only [State.enqueue]
  split <;> simp

@[simp] theorem State.sealBuffer_port (n : Index) : (s.sealBuffer n).port = s.port := by
  simp only [State.sealBuffer]
  split <;> simp

@[simp] theorem State.sealBuffer_reads (n : Index) : (s.sealBuffer n).reads = s.reads := by
  simp only [State.sealBuffer]
  split <;> simp

@[simp] theorem State.sealBuffer_bus (n : Index) : (s.sealBuffer n).bus = s.bus := by
  simp only [State.sealBuffer]
  split <;> simp

@[simp] theorem State.sealBuffer_slot (n : Index) : (s.sealBuffer n).slot = s.slot := by
  simp only [State.sealBuffer]
  split <;> simp

@[simp] theorem State.sealBuffer_control (n : Index) : (s.sealBuffer n).control = s.control := by
  simp only [State.sealBuffer]
  split <;> simp

@[simp] theorem State.sealBuffer_events (n : Index) : (s.sealBuffer n).events = s.events := by
  simp only [State.sealBuffer]
  split <;> simp

@[simp] theorem State.sealOldest_port (except : Option Index) : (s.sealOldest except).port = s.port := by
  simp only [State.sealOldest]
  split <;> simp

@[simp] theorem State.sealOldest_reads (except : Option Index) : (s.sealOldest except).reads = s.reads := by
  simp only [State.sealOldest]
  split <;> simp

@[simp] theorem State.sealOldest_bus (except : Option Index) : (s.sealOldest except).bus = s.bus := by
  simp only [State.sealOldest]
  split <;> simp

@[simp] theorem State.sealOldest_slot (except : Option Index) : (s.sealOldest except).slot = s.slot := by
  simp only [State.sealOldest]
  split <;> simp

@[simp] theorem State.sealOldest_control (except : Option Index) : (s.sealOldest except).control = s.control := by
  simp only [State.sealOldest]
  split <;> simp

@[simp] theorem State.sealOldest_events (except : Option Index) : (s.sealOldest except).events = s.events := by
  simp only [State.sealOldest]
  split <;> simp

@[simp] theorem State.reserveSeal_port (except : Option Index) : (s.reserveSeal except).port = s.port := by
  simp only [State.reserveSeal]
  split <;> simp

@[simp] theorem State.reserveSeal_reads (except : Option Index) : (s.reserveSeal except).reads = s.reads := by
  simp only [State.reserveSeal]
  split <;> simp

@[simp] theorem State.reserveSeal_bus (except : Option Index) : (s.reserveSeal except).bus = s.bus := by
  simp only [State.reserveSeal]
  split <;> simp

@[simp] theorem State.reserveSeal_slot (except : Option Index) : (s.reserveSeal except).slot = s.slot := by
  simp only [State.reserveSeal]
  split <;> simp

@[simp] theorem State.reserveSeal_control (except : Option Index) : (s.reserveSeal except).control = s.control := by
  simp only [State.reserveSeal]
  split <;> simp

@[simp] theorem State.reserveSeal_events (except : Option Index) : (s.reserveSeal except).events = s.events := by
  simp only [State.reserveSeal]
  split <;> simp

@[simp] theorem State.sealAll_port : s.sealAll.port = s.port :=
  foldl_keeps (State.port) _ State.sealBuffer_port _ s

@[simp] theorem State.sealAll_reads : s.sealAll.reads = s.reads :=
  foldl_keeps (State.reads) _ State.sealBuffer_reads _ s

@[simp] theorem State.sealAll_bus : s.sealAll.bus = s.bus :=
  foldl_keeps (State.bus) _ State.sealBuffer_bus _ s

@[simp] theorem State.sealAll_slot : s.sealAll.slot = s.slot :=
  foldl_keeps (State.slot) _ State.sealBuffer_slot _ s

@[simp] theorem State.sealAll_control : s.sealAll.control = s.control :=
  foldl_keeps (State.control) _ State.sealBuffer_control _ s

@[simp] theorem State.sealAll_events : s.sealAll.events = s.events :=
  foldl_keeps (State.events) _ State.sealBuffer_events _ s

@[simp] theorem State.deferReads_table (d : Index) : (s.deferReads d).table = s.table := by
  simp only [State.deferReads]
  (repeat' split) <;> simp

@[simp] theorem State.deferReads_engine (d : Index) : (s.deferReads d).engine = s.engine := by
  simp only [State.deferReads]
  (repeat' split) <;> simp

@[simp] theorem State.deferReads_reads (d : Index) : (s.deferReads d).reads = s.reads := by
  simp only [State.deferReads]
  (repeat' split) <;> simp

@[simp] theorem State.deferReads_slot (d : Index) : (s.deferReads d).slot = s.slot := by
  simp only [State.deferReads]
  (repeat' split) <;> simp

@[simp] theorem State.deferReads_control (d : Index) : (s.deferReads d).control = s.control := by
  simp only [State.deferReads]
  (repeat' split) <;> simp

@[simp] theorem State.deferReads_events (d : Index) : (s.deferReads d).events = s.events := by
  simp only [State.deferReads]
  (repeat' split) <;> simp

@[simp] theorem State.enterCycling_table (d : Index) : (s.enterCycling d).table = s.table := by
  simp [State.enterCycling]

@[simp] theorem State.enterCycling_reads (d : Index) : (s.enterCycling d).reads = s.reads := by
  simp [State.enterCycling]

@[simp] theorem State.enterCycling_slot (d : Index) : (s.enterCycling d).slot = s.slot := by
  simp [State.enterCycling]

@[simp] theorem State.enterCycling_control (d : Index) : (s.enterCycling d).control = s.control := by
  simp [State.enterCycling]

@[simp] theorem State.enterCycling_events (d : Index) : (s.enterCycling d).events = s.events := by
  simp [State.enterCycling]

@[simp] theorem State.busyNack_table (d : Index) : (s.busyNack d).table = s.table := by
  simp only [State.busyNack]
  split <;> simp

@[simp] theorem State.busyNack_reads (d : Index) : (s.busyNack d).reads = s.reads := by
  simp only [State.busyNack]
  split <;> simp

@[simp] theorem State.busyNack_slot (d : Index) : (s.busyNack d).slot = s.slot := by
  simp only [State.busyNack]
  split <;> simp

@[simp] theorem State.busyNack_control (d : Index) : (s.busyNack d).control = s.control := by
  simp only [State.busyNack]
  split <;> simp

@[simp] theorem State.busyNack_events (d : Index) : (s.busyNack d).events = s.events := by
  simp only [State.busyNack]
  split <;> simp

@[simp] theorem State.emptyAhead_port : s.emptyAhead.port = s.port := by
  simp [State.emptyAhead]

@[simp] theorem State.emptyAhead_table : s.emptyAhead.table = s.table := by
  simp [State.emptyAhead]

@[simp] theorem State.emptyAhead_engine : s.emptyAhead.engine = s.engine := by
  simp [State.emptyAhead]

@[simp] theorem State.emptyAhead_bus : s.emptyAhead.bus = s.bus := by
  simp [State.emptyAhead]

@[simp] theorem State.emptyAhead_slot : s.emptyAhead.slot = s.slot := by
  simp [State.emptyAhead]

@[simp] theorem State.emptyAhead_control : s.emptyAhead.control = s.control := by
  simp [State.emptyAhead]

@[simp] theorem State.emptyAhead_events : s.emptyAhead.events = s.events := by
  simp [State.emptyAhead]

@[simp] theorem State.emptyAheadOf_port (d : Index) : (s.emptyAheadOf d).port = s.port := by
  simp only [State.emptyAheadOf]
  split <;> simp

@[simp] theorem State.emptyAheadOf_table (d : Index) : (s.emptyAheadOf d).table = s.table := by
  simp only [State.emptyAheadOf]
  split <;> simp

@[simp] theorem State.emptyAheadOf_engine (d : Index) : (s.emptyAheadOf d).engine = s.engine := by
  simp only [State.emptyAheadOf]
  split <;> simp

@[simp] theorem State.emptyAheadOf_bus (d : Index) : (s.emptyAheadOf d).bus = s.bus := by
  simp only [State.emptyAheadOf]
  split <;> simp

@[simp] theorem State.emptyAheadOf_slot (d : Index) : (s.emptyAheadOf d).slot = s.slot := by
  simp only [State.emptyAheadOf]
  split <;> simp

@[simp] theorem State.emptyAheadOf_control (d : Index) : (s.emptyAheadOf d).control = s.control := by
  simp only [State.emptyAheadOf]
  split <;> simp

@[simp] theorem State.emptyAheadOf_events (d : Index) : (s.emptyAheadOf d).events = s.events := by
  simp only [State.emptyAheadOf]
  split <;> simp

@[simp] theorem State.streamNext_port : s.streamNext.port = s.port := by
  simp only [State.streamNext]
  (repeat' split) <;> simp

@[simp] theorem State.streamNext_table : s.streamNext.table = s.table := by
  simp only [State.streamNext]
  (repeat' split) <;> simp

@[simp] theorem State.streamNext_engine : s.streamNext.engine = s.engine := by
  simp only [State.streamNext]
  (repeat' split) <;> simp

@[simp] theorem State.streamNext_slot : s.streamNext.slot = s.slot := by
  simp only [State.streamNext]
  (repeat' split) <;> simp

@[simp] theorem State.streamNext_control : s.streamNext.control = s.control := by
  simp only [State.streamNext]
  (repeat' split) <;> simp

@[simp] theorem State.streamNext_events : s.streamNext.events = s.events := by
  simp only [State.streamNext]
  (repeat' split) <;> simp

@[simp] theorem State.parkedCloses_port : s.parkedCloses.port = s.port := by
  simp only [State.parkedCloses]
  (repeat' split) <;> simp

@[simp] theorem State.parkedCloses_table : s.parkedCloses.table = s.table := by
  simp only [State.parkedCloses]
  (repeat' split) <;> simp

@[simp] theorem State.parkedCloses_engine : s.parkedCloses.engine = s.engine := by
  simp only [State.parkedCloses]
  (repeat' split) <;> simp

@[simp] theorem State.parkedCloses_slot : s.parkedCloses.slot = s.slot := by
  simp only [State.parkedCloses]
  (repeat' split) <;> simp

@[simp] theorem State.parkedCloses_control : s.parkedCloses.control = s.control := by
  simp only [State.parkedCloses]
  (repeat' split) <;> simp

@[simp] theorem State.parkedCloses_events : s.parkedCloses.events = s.events := by
  simp only [State.parkedCloses]
  (repeat' split) <;> simp

@[simp] theorem State.readAheadRestart_port : s.readAheadRestart.port = s.port := by
  simp only [State.readAheadRestart]
  (repeat' split) <;> simp

@[simp] theorem State.readAheadRestart_table : s.readAheadRestart.table = s.table := by
  simp only [State.readAheadRestart]
  (repeat' split) <;> simp

@[simp] theorem State.readAheadRestart_engine : s.readAheadRestart.engine = s.engine := by
  simp only [State.readAheadRestart]
  (repeat' split) <;> simp

@[simp] theorem State.readAheadRestart_slot : s.readAheadRestart.slot = s.slot := by
  simp only [State.readAheadRestart]
  (repeat' split) <;> simp

@[simp] theorem State.readAheadRestart_control : s.readAheadRestart.control = s.control := by
  simp only [State.readAheadRestart]
  (repeat' split) <;> simp

@[simp] theorem State.readAheadRestart_events : s.readAheadRestart.events = s.events := by
  simp only [State.readAheadRestart]
  (repeat' split) <;> simp

@[simp] theorem State.completeRead_table (bs : List Byte) : (s.completeRead bs).table = s.table := by
  simp [State.completeRead]

@[simp] theorem State.completeRead_engine (bs : List Byte) : (s.completeRead bs).engine = s.engine := by
  simp [State.completeRead]

@[simp] theorem State.completeRead_slot (bs : List Byte) : (s.completeRead bs).slot = s.slot := by
  simp [State.completeRead]

@[simp] theorem State.completeRead_control (bs : List Byte) : (s.completeRead bs).control = s.control := by
  simp [State.completeRead]

@[simp] theorem State.completeRead_events (bs : List Byte) : (s.completeRead bs).events = s.events := by
  simp [State.completeRead]

@[simp] theorem State.demandEmpty_port : (s.demandEmpty).port = s.port := rfl
@[simp] theorem State.demandEmpty_table : (s.demandEmpty).table = s.table := rfl
@[simp] theorem State.demandEmpty_engine : (s.demandEmpty).engine = s.engine := rfl
@[simp] theorem State.demandEmpty_bus : (s.demandEmpty).bus = s.bus := rfl
@[simp] theorem State.demandEmpty_slot : (s.demandEmpty).slot = s.slot := rfl
@[simp] theorem State.demandEmpty_control : (s.demandEmpty).control = s.control := rfl
@[simp] theorem State.demandEmpty_events : (s.demandEmpty).events = s.events := rfl

@[simp] theorem State.joinAhead_port (p : StreamPos) (v : Byte) : (s.joinAhead p v).port = s.port := by
  simp only [State.joinAhead]
  split <;> simp

@[simp] theorem State.joinAhead_table (p : StreamPos) (v : Byte) : (s.joinAhead p v).table = s.table := by
  simp only [State.joinAhead]
  split <;> simp

@[simp] theorem State.joinAhead_engine (p : StreamPos) (v : Byte) : (s.joinAhead p v).engine = s.engine := by
  simp only [State.joinAhead]
  split <;> simp

@[simp] theorem State.joinAhead_bus (p : StreamPos) (v : Byte) : (s.joinAhead p v).bus = s.bus := by
  simp only [State.joinAhead]
  split <;> simp

@[simp] theorem State.joinAhead_slot (p : StreamPos) (v : Byte) : (s.joinAhead p v).slot = s.slot := by
  simp only [State.joinAhead]
  split <;> simp

@[simp] theorem State.joinAhead_control (p : StreamPos) (v : Byte) : (s.joinAhead p v).control = s.control := by
  simp only [State.joinAhead]
  split <;> simp

@[simp] theorem State.joinAhead_events (p : StreamPos) (v : Byte) : (s.joinAhead p v).events = s.events := by
  simp only [State.joinAhead]
  split <;> simp

@[simp] theorem State.streamCloses_port : (s.streamCloses).port = s.port := rfl

@[simp] theorem State.streamCloses_table : (s.streamCloses).table = s.table := rfl

@[simp] theorem State.streamCloses_engine : (s.streamCloses).engine = s.engine := rfl

@[simp] theorem State.streamCloses_bus : (s.streamCloses).bus = s.bus := rfl

@[simp] theorem State.streamCloses_slot : (s.streamCloses).slot = s.slot := rfl

@[simp] theorem State.streamCloses_control : (s.streamCloses).control = s.control := rfl

@[simp] theorem State.streamCloses_events : (s.streamCloses).events = s.events := rfl

@[simp] theorem State.refuseRead_table (r : ReadRecord) (kind : FaultKind) (detail : Byte) (buffer : Option Index) :
    (s.refuseRead r kind detail buffer).table = s.table := by
  simp [State.refuseRead]

@[simp] theorem State.refuseRead_engine (r : ReadRecord) (kind : FaultKind) (detail : Byte) (buffer : Option Index) :
    (s.refuseRead r kind detail buffer).engine = s.engine := by
  simp [State.refuseRead]

@[simp] theorem State.refuseRead_reads (r : ReadRecord) (kind : FaultKind) (detail : Byte) (buffer : Option Index) :
    (s.refuseRead r kind detail buffer).reads = s.reads := by
  simp [State.refuseRead]

@[simp] theorem State.refuseRead_bus (r : ReadRecord) (kind : FaultKind) (detail : Byte) (buffer : Option Index) :
    (s.refuseRead r kind detail buffer).bus = s.bus := by
  simp [State.refuseRead]

@[simp] theorem State.refuseRead_slot (r : ReadRecord) (kind : FaultKind) (detail : Byte) (buffer : Option Index) :
    (s.refuseRead r kind detail buffer).slot = s.slot := by
  simp [State.refuseRead]

@[simp] theorem State.refuseRead_control (r : ReadRecord) (kind : FaultKind) (detail : Byte) (buffer : Option Index) :
    (s.refuseRead r kind detail buffer).control = s.control := by
  simp [State.refuseRead]

@[simp] theorem State.refuseSilentRead_table (r : ReadRecord) : (s.refuseSilentRead r).table = s.table := by
  simp [State.refuseSilentRead]

@[simp] theorem State.refuseSilentRead_engine (r : ReadRecord) : (s.refuseSilentRead r).engine = s.engine := by
  simp [State.refuseSilentRead]

@[simp] theorem State.refuseSilentRead_reads (r : ReadRecord) : (s.refuseSilentRead r).reads = s.reads := by
  simp [State.refuseSilentRead]

@[simp] theorem State.refuseSilentRead_bus (r : ReadRecord) : (s.refuseSilentRead r).bus = s.bus := by
  simp [State.refuseSilentRead]

@[simp] theorem State.refuseSilentRead_slot (r : ReadRecord) : (s.refuseSilentRead r).slot = s.slot := by
  simp [State.refuseSilentRead]

@[simp] theorem State.refuseSilentRead_control (r : ReadRecord) : (s.refuseSilentRead r).control = s.control := by
  simp [State.refuseSilentRead]

@[simp] theorem State.refuseNoBufferRead_table (r : ReadRecord) : (s.refuseNoBufferRead r).table = s.table := by
  simp [State.refuseNoBufferRead]

@[simp] theorem State.refuseNoBufferRead_engine (r : ReadRecord) : (s.refuseNoBufferRead r).engine = s.engine := by
  simp [State.refuseNoBufferRead]

@[simp] theorem State.refuseNoBufferRead_reads (r : ReadRecord) : (s.refuseNoBufferRead r).reads = s.reads := by
  simp [State.refuseNoBufferRead]

@[simp] theorem State.refuseNoBufferRead_bus (r : ReadRecord) : (s.refuseNoBufferRead r).bus = s.bus := by
  simp [State.refuseNoBufferRead]

@[simp] theorem State.refuseNoBufferRead_slot (r : ReadRecord) : (s.refuseNoBufferRead r).slot = s.slot := by
  simp [State.refuseNoBufferRead]

@[simp] theorem State.refuseNoBufferRead_control (r : ReadRecord) : (s.refuseNoBufferRead r).control = s.control := by
  simp [State.refuseNoBufferRead]

@[simp] theorem State.seekStream_table (r : ReadRecord) (x : Nat) : (s.seekStream r x).table = s.table := by
  simp only [State.seekStream]
  (repeat' split) <;> simp

@[simp] theorem State.seekStream_engine (r : ReadRecord) (x : Nat) : (s.seekStream r x).engine = s.engine := by
  simp only [State.seekStream]
  (repeat' split) <;> simp

@[simp] theorem State.seekStream_slot (r : ReadRecord) (x : Nat) : (s.seekStream r x).slot = s.slot := by
  simp only [State.seekStream]
  (repeat' split) <;> simp

@[simp] theorem State.seekStream_control (r : ReadRecord) (x : Nat) : (s.seekStream r x).control = s.control := by
  simp only [State.seekStream]
  (repeat' split) <;> simp

@[simp] theorem State.seekStream_events (r : ReadRecord) (x : Nat) : (s.seekStream r x).events = s.events := by
  simp only [State.seekStream]
  (repeat' split) <;> simp

/-- A buffer obtained for a page is the table's alone. -/
theorem State.obtain_reads (n : Index) (t : State) (h : s.obtain = some (n, t)) : t.reads = s.reads := by
  simp only [State.obtain] at h
  split at h
  · cases h; rfl
  · cases he : s.evictable with
    | none => simp [he] at h
    | some m =>
      simp only [he, Option.map_some, Option.some.injEq, Prod.mk.injEq] at h
      rw [← h.2, State.freeBuffer_reads]

@[simp] theorem State.allocateVerify_reads (r : ReadRecord) : (s.allocateVerify r).reads = s.reads := by
  simp only [State.allocateVerify]
  split
  · rename_i n t h
    simp [s.obtain_reads n t h]
  · split <;> simp

/-- A buffer obtained for a page is the table's alone. -/
theorem State.obtain_slot (n : Index) (t : State) (h : s.obtain = some (n, t)) : t.slot = s.slot := by
  simp only [State.obtain] at h
  split at h
  · cases h; rfl
  · cases he : s.evictable with
    | none => simp [he] at h
    | some m =>
      simp only [he, Option.map_some, Option.some.injEq, Prod.mk.injEq] at h
      rw [← h.2, State.freeBuffer_slot]

@[simp] theorem State.allocateVerify_slot (r : ReadRecord) : (s.allocateVerify r).slot = s.slot := by
  simp only [State.allocateVerify]
  split
  · rename_i n t h
    simp [s.obtain_slot n t h]
  · split <;> simp

/-- A buffer obtained for a page is the table's alone. -/
theorem State.obtain_control (n : Index) (t : State) (h : s.obtain = some (n, t)) : t.control = s.control := by
  simp only [State.obtain] at h
  split at h
  · cases h; rfl
  · cases he : s.evictable with
    | none => simp [he] at h
    | some m =>
      simp only [he, Option.map_some, Option.some.injEq, Prod.mk.injEq] at h
      rw [← h.2, State.freeBuffer_control]

@[simp] theorem State.allocateVerify_control (r : ReadRecord) : (s.allocateVerify r).control = s.control := by
  simp only [State.allocateVerify]
  split
  · rename_i n t h
    simp [s.obtain_control n t h]
  · split <;> simp

@[simp] theorem State.seekVerify_reads (r : ReadRecord) : (s.seekVerify r).reads = s.reads := by
  simp only [State.seekVerify]
  (repeat' split) <;> simp

@[simp] theorem State.seekVerify_slot (r : ReadRecord) : (s.seekVerify r).slot = s.slot := by
  simp only [State.seekVerify]
  (repeat' split) <;> simp

@[simp] theorem State.seekVerify_control (r : ReadRecord) : (s.seekVerify r).control = s.control := by
  simp only [State.seekVerify]
  (repeat' split) <;> simp

@[simp] theorem State.seekMemory_slot (r : ReadRecord) : (s.seekMemory r).slot = s.slot := by
  simp only [State.seekMemory]
  (repeat' split) <;> simp

@[simp] theorem State.seekMemory_control (r : ReadRecord) : (s.seekMemory r).control = s.control := by
  simp only [State.seekMemory]
  (repeat' split) <;> simp

/-- A forwarded byte changes the table alone. -/
theorem State.forward_slot (d : Index) (p pos : Nat) (v : Byte) (t : State) (h : s.forward d p pos = some (v, t)) :
    t.slot = s.slot := by
  simp only [State.forward] at h
  split at h
  · cases h; rfl
  · cases hc : s.cleanSource d p pos with
    | none => simp [hc] at h
    | some m =>
      simp only [hc, Option.map_some, Option.some.injEq, Prod.mk.injEq] at h
      rw [← h.2, State.touchClean_slot]

/-- A byte from the read-ahead queue changes the Read Path alone. -/
theorem State.takeAhead_slot (d : Index) (x : Nat) (v : Byte) (t : State) (h : s.takeAhead d x = some (v, t)) :
    t.slot = s.slot := by
  simp only [State.takeAhead] at h
  split at h
  · simp only [Option.some.injEq, Prod.mk.injEq] at h
    rw [← h.2, State.setAhead_slot]
  · cases h

@[simp] theorem State.resolveFrom_slot (ps : List Nat) (r : ReadRecord) : (s.resolveFrom ps r).slot = s.slot := by
  induction ps generalizing s r with
  | nil => simp [State.resolveFrom]
  | cons p ps ih =>
    simp only [State.resolveFrom]
    split
    · rename_i v t h
      rw [ih, s.forward_slot _ _ _ v t h]
    · split
      · rename_i v t h
        split at h
        · cases h
        · rw [ih, s.takeAhead_slot _ _ v t h]
      · simp

@[simp] theorem State.resolve_slot (r : ReadRecord) : (s.resolve r).slot = s.slot := by
  simp [State.resolve]

/-- A forwarded byte changes the table alone. -/
theorem State.forward_control (d : Index) (p pos : Nat) (v : Byte) (t : State) (h : s.forward d p pos = some (v, t)) :
    t.control = s.control := by
  simp only [State.forward] at h
  split at h
  · cases h; rfl
  · cases hc : s.cleanSource d p pos with
    | none => simp [hc] at h
    | some m =>
      simp only [hc, Option.map_some, Option.some.injEq, Prod.mk.injEq] at h
      rw [← h.2, State.touchClean_control]

/-- A byte from the read-ahead queue changes the Read Path alone. -/
theorem State.takeAhead_control (d : Index) (x : Nat) (v : Byte) (t : State) (h : s.takeAhead d x = some (v, t)) :
    t.control = s.control := by
  simp only [State.takeAhead] at h
  split at h
  · simp only [Option.some.injEq, Prod.mk.injEq] at h
    rw [← h.2, State.setAhead_control]
  · cases h

@[simp] theorem State.resolveFrom_control (ps : List Nat) (r : ReadRecord) : (s.resolveFrom ps r).control = s.control := by
  induction ps generalizing s r with
  | nil => simp [State.resolveFrom]
  | cons p ps ih =>
    simp only [State.resolveFrom]
    split
    · rename_i v t h
      rw [ih, s.forward_control _ _ _ v t h]
    · split
      · rename_i v t h
        split at h
        · cases h
        · rw [ih, s.takeAhead_control _ _ v t h]
      · simp

@[simp] theorem State.resolve_control (r : ReadRecord) : (s.resolve r).control = s.control := by
  simp [State.resolve]

@[simp] theorem State.afterClose_slot : s.afterClose.slot = s.slot := by
  simp only [State.afterClose]
  (repeat' split) <;> simp

@[simp] theorem State.afterClose_control : s.afterClose.control = s.control := by
  simp only [State.afterClose]
  (repeat' split) <;> simp

@[simp] theorem State.retryRead_slot (r : ReadRecord) (outcome : Byte) : (s.retryRead r outcome).slot = s.slot := by
  simp only [State.retryRead]
  split <;> simp

@[simp] theorem State.retryRead_control (r : ReadRecord) (outcome : Byte) :
    (s.retryRead r outcome).control = s.control := by
  simp only [State.retryRead]
  split <;> simp

theorem State.streamFails_slot (f : State → ReadRecord → State) (hf : ∀ s r, (f s r).slot = s.slot) :
    (s.streamFails f).slot = s.slot := by
  simp only [State.streamFails]
  split <;> simp [hf]

theorem State.streamFails_control (f : State → ReadRecord → State) (hf : ∀ s r, (f s r).control = s.control) :
    (s.streamFails f).control = s.control := by
  simp only [State.streamFails]
  split <;> simp [hf]

@[simp] theorem State.dropRead_port : s.dropRead.port = s.port := by
  simp [State.dropRead]

@[simp] theorem State.dropRead_table : s.dropRead.table = s.table := by
  simp [State.dropRead]

@[simp] theorem State.dropRead_engine : s.dropRead.engine = s.engine := by
  simp [State.dropRead]

@[simp] theorem State.dropRead_reads : s.dropRead.reads = s.reads := by
  simp [State.dropRead]

@[simp] theorem State.dropRead_slot : s.dropRead.slot = s.slot := by
  simp [State.dropRead]

@[simp] theorem State.dropRead_control : s.dropRead.control = s.control := by
  simp [State.dropRead]

@[simp] theorem State.dropRead_events : s.dropRead.events = s.events := by
  simp [State.dropRead]

@[simp] theorem State.refuseSilentWrite_table (t : Translation) : (s.refuseSilentWrite t).table = s.table := by
  simp [State.refuseSilentWrite]

@[simp] theorem State.refuseSilentWrite_engine (t : Translation) : (s.refuseSilentWrite t).engine = s.engine := by
  simp [State.refuseSilentWrite]

@[simp] theorem State.refuseSilentWrite_reads (t : Translation) : (s.refuseSilentWrite t).reads = s.reads := by
  simp [State.refuseSilentWrite]

@[simp] theorem State.refuseSilentWrite_bus (t : Translation) : (s.refuseSilentWrite t).bus = s.bus := by
  simp [State.refuseSilentWrite]

@[simp] theorem State.refuseSilentWrite_slot (t : Translation) : (s.refuseSilentWrite t).slot = s.slot := by
  simp [State.refuseSilentWrite]

@[simp] theorem State.refuseSilentWrite_control (t : Translation) : (s.refuseSilentWrite t).control = s.control := by
  simp [State.refuseSilentWrite]

@[simp] theorem State.refuseNoBufferWrite_table (t : Translation) : (s.refuseNoBufferWrite t).table = s.table := by
  simp [State.refuseNoBufferWrite]

@[simp] theorem State.refuseNoBufferWrite_engine (t : Translation) : (s.refuseNoBufferWrite t).engine = s.engine := by
  simp [State.refuseNoBufferWrite]

@[simp] theorem State.refuseNoBufferWrite_reads (t : Translation) : (s.refuseNoBufferWrite t).reads = s.reads := by
  simp [State.refuseNoBufferWrite]

@[simp] theorem State.refuseNoBufferWrite_bus (t : Translation) : (s.refuseNoBufferWrite t).bus = s.bus := by
  simp [State.refuseNoBufferWrite]

@[simp] theorem State.refuseNoBufferWrite_slot (t : Translation) : (s.refuseNoBufferWrite t).slot = s.slot := by
  simp [State.refuseNoBufferWrite]

@[simp] theorem State.refuseNoBufferWrite_control (t : Translation) :
    (s.refuseNoBufferWrite t).control = s.control := by
  simp [State.refuseNoBufferWrite]

@[simp] theorem State.sealIfDue_port (n : Index) (t : Translation) : (s.sealIfDue n t).port = s.port := by
  simp only [State.sealIfDue]
  (repeat' split) <;> simp

@[simp] theorem State.sealIfDue_reads (n : Index) (t : Translation) : (s.sealIfDue n t).reads = s.reads := by
  simp only [State.sealIfDue]
  (repeat' split) <;> simp

@[simp] theorem State.sealIfDue_bus (n : Index) (t : Translation) : (s.sealIfDue n t).bus = s.bus := by
  simp only [State.sealIfDue]
  (repeat' split) <;> simp

@[simp] theorem State.sealIfDue_slot (n : Index) (t : Translation) : (s.sealIfDue n t).slot = s.slot := by
  simp only [State.sealIfDue]
  (repeat' split) <;> simp

@[simp] theorem State.sealIfDue_control (n : Index) (t : Translation) : (s.sealIfDue n t).control = s.control := by
  simp only [State.sealIfDue]
  (repeat' split) <;> simp

@[simp] theorem State.sealIfDue_events (n : Index) (t : Translation) : (s.sealIfDue n t).events = s.events := by
  simp only [State.sealIfDue]
  (repeat' split) <;> simp

@[simp] theorem State.acceptInto_reads (n : Index) (t : Translation) (obtained : Bool) :
    (s.acceptInto n t obtained).reads = s.reads := by
  simp only [State.acceptInto]
  split <;> simp

@[simp] theorem State.acceptInto_bus (n : Index) (t : Translation) (obtained : Bool) :
    (s.acceptInto n t obtained).bus = s.bus := by
  simp only [State.acceptInto]
  split <;> simp

@[simp] theorem State.acceptInto_slot (n : Index) (t : Translation) (obtained : Bool) :
    (s.acceptInto n t obtained).slot = s.slot := by
  simp only [State.acceptInto]
  split <;> simp

@[simp] theorem State.acceptInto_control (n : Index) (t : Translation) (obtained : Bool) :
    (s.acceptInto n t obtained).control = s.control := by
  simp only [State.acceptInto]
  split <;> simp

@[simp] theorem State.acceptInto_events (n : Index) (t : Translation) (obtained : Bool) :
    (s.acceptInto n t obtained).events = s.events := by
  simp only [State.acceptInto]
  split <;> simp

@[simp] theorem State.waitForBuffer_reads (t : Translation) : (s.waitForBuffer t).reads = s.reads := by
  simp only [State.waitForBuffer]
  (repeat' split) <;> simp

@[simp] theorem State.waitForBuffer_bus (t : Translation) : (s.waitForBuffer t).bus = s.bus := by
  simp only [State.waitForBuffer]
  (repeat' split) <;> simp

@[simp] theorem State.waitForBuffer_slot (t : Translation) : (s.waitForBuffer t).slot = s.slot := by
  simp only [State.waitForBuffer]
  (repeat' split) <;> simp

@[simp] theorem State.waitForBuffer_control (t : Translation) : (s.waitForBuffer t).control = s.control := by
  simp only [State.waitForBuffer]
  (repeat' split) <;> simp

@[simp] theorem State.writeNewBuffer_reads (t : Translation) : (s.writeNewBuffer t).reads = s.reads := by
  simp only [State.writeNewBuffer]
  split
  · rename_i n t h
    simp [s.obtain_reads n t h]
  · simp

/-- A buffer obtained for a page is the table's alone. -/
theorem State.obtain_bus (n : Index) (t : State) (h : s.obtain = some (n, t)) : t.bus = s.bus := by
  simp only [State.obtain] at h
  split at h
  · cases h; rfl
  · cases he : s.evictable with
    | none => simp [he] at h
    | some m =>
      simp only [he, Option.map_some, Option.some.injEq, Prod.mk.injEq] at h
      rw [← h.2, State.freeBuffer_bus]

@[simp] theorem State.writeNewBuffer_bus (t : Translation) : (s.writeNewBuffer t).bus = s.bus := by
  simp only [State.writeNewBuffer]
  split
  · rename_i n t h
    simp [s.obtain_bus n t h]
  · simp

@[simp] theorem State.writeNewBuffer_slot (t : Translation) : (s.writeNewBuffer t).slot = s.slot := by
  simp only [State.writeNewBuffer]
  split
  · rename_i n t h
    simp [s.obtain_slot n t h]
  · simp

@[simp] theorem State.writeNewBuffer_control (t : Translation) : (s.writeNewBuffer t).control = s.control := by
  simp only [State.writeNewBuffer]
  split
  · rename_i n t h
    simp [s.obtain_control n t h]
  · simp

@[simp] theorem State.writeOverClean_reads (t : Translation) (c : Index) :
    (s.writeOverClean t c).reads = s.reads := by
  simp only [State.writeOverClean]
  split <;> simp

@[simp] theorem State.writeOverClean_bus (t : Translation) (c : Index) : (s.writeOverClean t c).bus = s.bus := by
  simp only [State.writeOverClean]
  split <;> simp

@[simp] theorem State.writeOverClean_slot (t : Translation) (c : Index) : (s.writeOverClean t c).slot = s.slot := by
  simp only [State.writeOverClean]
  split <;> simp

@[simp] theorem State.writeOverClean_control (t : Translation) (c : Index) :
    (s.writeOverClean t c).control = s.control := by
  simp only [State.writeOverClean]
  split <;> simp

@[simp] theorem State.writeAccess_reads (t : Translation) : (s.writeAccess t).reads = s.reads := by
  simp only [State.writeAccess]
  (repeat' split) <;> simp

@[simp] theorem State.writeAccess_bus (t : Translation) : (s.writeAccess t).bus = s.bus := by
  simp only [State.writeAccess]
  (repeat' split) <;> simp

@[simp] theorem State.writeAccess_slot (t : Translation) : (s.writeAccess t).slot = s.slot := by
  simp only [State.writeAccess]
  (repeat' split) <;> simp

@[simp] theorem State.writeAccess_control (t : Translation) : (s.writeAccess t).control = s.control := by
  simp only [State.writeAccess]
  (repeat' split) <;> simp

@[simp] theorem State.readAccess_slot (t : Translation) : (s.readAccess t).slot = s.slot := by
  simp [State.readAccess]

@[simp] theorem State.readAccess_control (t : Translation) : (s.readAccess t).control = s.control := by
  simp [State.readAccess]

@[simp] theorem State.dispatch_slot : s.dispatch.slot = s.slot := by
  simp only [State.dispatch]
  (repeat' split) <;> simp

@[simp] theorem State.dispatch_control : s.dispatch.control = s.control := by
  simp only [State.dispatch]
  (repeat' split) <;> simp

@[simp] theorem State.dispatchByMode_slot : s.dispatchByMode.slot = s.slot := by
  simp only [State.dispatchByMode]
  (repeat' split) <;> simp

@[simp] theorem State.dispatchByMode_control : s.dispatchByMode.control = s.control := by
  simp only [State.dispatchByMode]
  (repeat' split) <;> simp

@[simp] theorem State.leaveModeHold_slot : s.leaveModeHold.slot = s.slot := by
  simp only [State.leaveModeHold]
  split <;> simp

@[simp] theorem State.leaveModeHold_control : s.leaveModeHold.control = s.control := by
  simp only [State.leaveModeHold]
  split <;> simp

@[simp] theorem State.handBack_table : s.handBack.table = s.table := by
  simp only [State.handBack]
  split <;> simp

@[simp] theorem State.handBack_engine : s.handBack.engine = s.engine := by
  simp only [State.handBack]
  split <;> simp

@[simp] theorem State.handBack_reads : s.handBack.reads = s.reads := by
  simp only [State.handBack]
  split <;> simp

@[simp] theorem State.handBack_slot : s.handBack.slot = s.slot := by
  simp only [State.handBack]
  split <;> simp

@[simp] theorem State.handBack_control : s.handBack.control = s.control := by
  simp only [State.handBack]
  split <;> simp

@[simp] theorem State.handBack_events : s.handBack.events = s.events := by
  simp only [State.handBack]
  split <;> simp

@[simp] theorem State.withdrawAccess_table : s.withdrawAccess.table = s.table := by
  simp only [State.withdrawAccess]
  split <;> simp

@[simp] theorem State.withdrawAccess_engine : s.withdrawAccess.engine = s.engine := by
  simp only [State.withdrawAccess]
  split <;> simp

@[simp] theorem State.withdrawAccess_reads : s.withdrawAccess.reads = s.reads := by
  simp only [State.withdrawAccess]
  split <;> simp

@[simp] theorem State.withdrawAccess_slot : s.withdrawAccess.slot = s.slot := by
  simp only [State.withdrawAccess]
  split <;> simp

@[simp] theorem State.withdrawAccess_control : s.withdrawAccess.control = s.control := by
  simp only [State.withdrawAccess]
  split <;> simp

@[simp] theorem State.withdrawAccess_events : s.withdrawAccess.events = s.events := by
  simp only [State.withdrawAccess]
  split <;> simp

@[simp] theorem State.testWaitingWrite_table (t : Translation) : (s.testWaitingWrite t).table = s.table := by
  simp only [State.testWaitingWrite]
  (repeat' split) <;> simp

@[simp] theorem State.testWaitingWrite_engine (t : Translation) : (s.testWaitingWrite t).engine = s.engine := by
  simp only [State.testWaitingWrite]
  (repeat' split) <;> simp

@[simp] theorem State.testWaitingWrite_reads (t : Translation) : (s.testWaitingWrite t).reads = s.reads := by
  simp only [State.testWaitingWrite]
  (repeat' split) <;> simp

@[simp] theorem State.testWaitingWrite_bus (t : Translation) : (s.testWaitingWrite t).bus = s.bus := by
  simp only [State.testWaitingWrite]
  (repeat' split) <;> simp

@[simp] theorem State.testWaitingWrite_slot (t : Translation) : (s.testWaitingWrite t).slot = s.slot := by
  simp only [State.testWaitingWrite]
  (repeat' split) <;> simp

@[simp] theorem State.testWaitingWrite_control (t : Translation) : (s.testWaitingWrite t).control = s.control := by
  simp only [State.testWaitingWrite]
  (repeat' split) <;> simp

@[simp] theorem State.testWaitingRead_table (r : ReadRecord) : (s.testWaitingRead r).table = s.table := by
  simp only [State.testWaitingRead]
  (repeat' split) <;> simp

@[simp] theorem State.testWaitingRead_engine (r : ReadRecord) : (s.testWaitingRead r).engine = s.engine := by
  simp only [State.testWaitingRead]
  (repeat' split) <;> simp

@[simp] theorem State.testWaitingRead_reads (r : ReadRecord) : (s.testWaitingRead r).reads = s.reads := by
  simp only [State.testWaitingRead]
  (repeat' split) <;> simp

@[simp] theorem State.testWaitingRead_bus (r : ReadRecord) : (s.testWaitingRead r).bus = s.bus := by
  simp only [State.testWaitingRead]
  (repeat' split) <;> simp

@[simp] theorem State.testWaitingRead_slot (r : ReadRecord) : (s.testWaitingRead r).slot = s.slot := by
  simp only [State.testWaitingRead]
  (repeat' split) <;> simp

@[simp] theorem State.testWaitingRead_control (r : ReadRecord) : (s.testWaitingRead r).control = s.control := by
  simp only [State.testWaitingRead]
  (repeat' split) <;> simp

@[simp] theorem State.testWaiting_table : s.testWaiting.table = s.table := by
  simp only [State.testWaiting]
  split <;> simp

@[simp] theorem State.testWaiting_engine : s.testWaiting.engine = s.engine := by
  simp only [State.testWaiting]
  split <;> simp

@[simp] theorem State.testWaiting_reads : s.testWaiting.reads = s.reads := by
  simp only [State.testWaiting]
  split <;> simp

@[simp] theorem State.testWaiting_bus : s.testWaiting.bus = s.bus := by
  simp only [State.testWaiting]
  split <;> simp

@[simp] theorem State.testWaiting_slot : s.testWaiting.slot = s.slot := by
  simp only [State.testWaiting]
  split <;> simp

@[simp] theorem State.testWaiting_control : s.testWaiting.control = s.control := by
  simp only [State.testWaiting]
  split <;> simp

@[simp] theorem State.finishWith_port (steps : List SeqStep) (outLength received : Nat) (outcome : SeqOutcome) (ending : Nat) (index : Option Nat) :
    (s.finishWith steps outLength received outcome ending index).port = s.port := by
  simp [State.finishWith]

@[simp] theorem State.finishWith_table (steps : List SeqStep) (outLength received : Nat) (outcome : SeqOutcome) (ending : Nat) (index : Option Nat) :
    (s.finishWith steps outLength received outcome ending index).table = s.table := by
  simp [State.finishWith]

@[simp] theorem State.finishWith_engine (steps : List SeqStep) (outLength received : Nat) (outcome : SeqOutcome) (ending : Nat) (index : Option Nat) :
    (s.finishWith steps outLength received outcome ending index).engine = s.engine := by
  simp [State.finishWith]

@[simp] theorem State.finishWith_reads (steps : List SeqStep) (outLength received : Nat) (outcome : SeqOutcome) (ending : Nat) (index : Option Nat) :
    (s.finishWith steps outLength received outcome ending index).reads = s.reads := by
  simp [State.finishWith]

@[simp] theorem State.finishWith_bus (steps : List SeqStep) (outLength received : Nat) (outcome : SeqOutcome) (ending : Nat) (index : Option Nat) :
    (s.finishWith steps outLength received outcome ending index).bus = s.bus := by
  simp [State.finishWith]

@[simp] theorem State.finishWith_control (steps : List SeqStep) (outLength received : Nat) (outcome : SeqOutcome) (ending : Nat) (index : Option Nat) :
    (s.finishWith steps outLength received outcome ending index).control = s.control := by
  simp [State.finishWith]

@[simp] theorem State.finishUnbegun_port (outcome : SeqOutcome) : (s.finishUnbegun outcome).port = s.port := by
  simp only [State.finishUnbegun]
  split <;> simp

@[simp] theorem State.finishUnbegun_table (outcome : SeqOutcome) : (s.finishUnbegun outcome).table = s.table := by
  simp only [State.finishUnbegun]
  split <;> simp

@[simp] theorem State.finishUnbegun_engine (outcome : SeqOutcome) : (s.finishUnbegun outcome).engine = s.engine := by
  simp only [State.finishUnbegun]
  split <;> simp

@[simp] theorem State.finishUnbegun_reads (outcome : SeqOutcome) : (s.finishUnbegun outcome).reads = s.reads := by
  simp only [State.finishUnbegun]
  split <;> simp

@[simp] theorem State.finishUnbegun_bus (outcome : SeqOutcome) : (s.finishUnbegun outcome).bus = s.bus := by
  simp only [State.finishUnbegun]
  split <;> simp

@[simp] theorem State.finishUnbegun_control (outcome : SeqOutcome) :
    (s.finishUnbegun outcome).control = s.control := by
  simp only [State.finishUnbegun]
  split <;> simp

@[simp] theorem State.nextStep_port (steps : List SeqStep) (outLength received retries current outPos : Nat) (abort : Bool) :
    (s.nextStep steps outLength received retries current outPos abort).port = s.port := by
  simp only [State.nextStep]
  (repeat' split) <;> simp

@[simp] theorem State.nextStep_table (steps : List SeqStep) (outLength received retries current outPos : Nat) (abort : Bool) :
    (s.nextStep steps outLength received retries current outPos abort).table = s.table := by
  simp only [State.nextStep]
  (repeat' split) <;> simp

@[simp] theorem State.nextStep_engine (steps : List SeqStep) (outLength received retries current outPos : Nat) (abort : Bool) :
    (s.nextStep steps outLength received retries current outPos abort).engine = s.engine := by
  simp only [State.nextStep]
  (repeat' split) <;> simp

@[simp] theorem State.nextStep_reads (steps : List SeqStep) (outLength received retries current outPos : Nat) (abort : Bool) :
    (s.nextStep steps outLength received retries current outPos abort).reads = s.reads := by
  simp only [State.nextStep]
  (repeat' split) <;> simp

@[simp] theorem State.nextStep_control (steps : List SeqStep) (outLength received retries current outPos : Nat) (abort : Bool) :
    (s.nextStep steps outLength received retries current outPos abort).control = s.control := by
  simp only [State.nextStep]
  (repeat' split) <;> simp

@[simp] theorem State.nextStep_events (steps : List SeqStep) (outLength received retries current outPos : Nat) (abort : Bool) :
    (s.nextStep steps outLength received retries current outPos abort).events = s.events := by
  simp only [State.nextStep]
  (repeat' split) <;> simp

@[simp] theorem State.cutSequence_port (outcome : SeqOutcome) (p : Progress) :
    (s.cutSequence outcome p).port = s.port := by
  simp only [State.cutSequence]
  (repeat' split) <;> simp

@[simp] theorem State.cutSequence_table (outcome : SeqOutcome) (p : Progress) :
    (s.cutSequence outcome p).table = s.table := by
  simp only [State.cutSequence]
  (repeat' split) <;> simp

@[simp] theorem State.cutSequence_engine (outcome : SeqOutcome) (p : Progress) :
    (s.cutSequence outcome p).engine = s.engine := by
  simp only [State.cutSequence]
  (repeat' split) <;> simp

@[simp] theorem State.cutSequence_reads (outcome : SeqOutcome) (p : Progress) :
    (s.cutSequence outcome p).reads = s.reads := by
  simp only [State.cutSequence]
  (repeat' split) <;> simp

@[simp] theorem State.cutSequence_bus (outcome : SeqOutcome) (p : Progress) :
    (s.cutSequence outcome p).bus = s.bus := by
  simp only [State.cutSequence]
  (repeat' split) <;> simp

@[simp] theorem State.cutSequence_control (outcome : SeqOutcome) (p : Progress) :
    (s.cutSequence outcome p).control = s.control := by
  simp only [State.cutSequence]
  (repeat' split) <;> simp

@[simp] theorem State.loseSequence_port (p : Progress) : (s.loseSequence p).port = s.port := by
  simp only [State.loseSequence]
  (repeat' split) <;> simp

@[simp] theorem State.loseSequence_table (p : Progress) : (s.loseSequence p).table = s.table := by
  simp only [State.loseSequence]
  (repeat' split) <;> simp

@[simp] theorem State.loseSequence_engine (p : Progress) : (s.loseSequence p).engine = s.engine := by
  simp only [State.loseSequence]
  (repeat' split) <;> simp

@[simp] theorem State.loseSequence_reads (p : Progress) : (s.loseSequence p).reads = s.reads := by
  simp only [State.loseSequence]
  (repeat' split) <;> simp

@[simp] theorem State.loseSequence_bus (p : Progress) : (s.loseSequence p).bus = s.bus := by
  simp only [State.loseSequence]
  (repeat' split) <;> simp

@[simp] theorem State.loseSequence_control (p : Progress) : (s.loseSequence p).control = s.control := by
  simp only [State.loseSequence]
  (repeat' split) <;> simp

@[simp] theorem State.abortSlot_port : s.abortSlot.port = s.port := by
  simp only [State.abortSlot]
  split <;> simp

@[simp] theorem State.abortSlot_table : s.abortSlot.table = s.table := by
  simp only [State.abortSlot]
  split <;> simp

@[simp] theorem State.abortSlot_engine : s.abortSlot.engine = s.engine := by
  simp only [State.abortSlot]
  split <;> simp

@[simp] theorem State.abortSlot_reads : s.abortSlot.reads = s.reads := by
  simp only [State.abortSlot]
  split <;> simp

@[simp] theorem State.abortSlot_bus : s.abortSlot.bus = s.bus := by
  simp only [State.abortSlot]
  split <;> simp

@[simp] theorem State.abortSlot_control : s.abortSlot.control = s.control := by
  simp only [State.abortSlot]
  split <;> simp

theorem State.endVerify_port (n : Index) (f : State → ReadRecord → State) (hf : ∀ s r, (f s r).port = s.port) :
    (s.endVerify n f).port = s.port := by
  simp only [State.endVerify]
  split <;> simp [hf]

theorem State.endVerify_engine (n : Index) (f : State → ReadRecord → State) (hf : ∀ s r, (f s r).engine = s.engine) :
    (s.endVerify n f).engine = s.engine := by
  simp only [State.endVerify]
  split <;> simp [hf]

theorem State.endVerify_reads (n : Index) (f : State → ReadRecord → State) (hf : ∀ s r, (f s r).reads = s.reads) :
    (s.endVerify n f).reads = s.reads := by
  simp only [State.endVerify]
  split <;> simp [hf]

theorem State.endVerify_bus (n : Index) (f : State → ReadRecord → State) (hf : ∀ s r, (f s r).bus = s.bus) :
    (s.endVerify n f).bus = s.bus := by
  simp only [State.endVerify]
  split <;> simp [hf]

theorem State.endVerify_slot (n : Index) (f : State → ReadRecord → State) (hf : ∀ s r, (f s r).slot = s.slot) :
    (s.endVerify n f).slot = s.slot := by
  simp only [State.endVerify]
  split <;> simp [hf]

theorem State.endVerify_control (n : Index) (f : State → ReadRecord → State) (hf : ∀ s r, (f s r).control = s.control) :
    (s.endVerify n f).control = s.control := by
  simp only [State.endVerify]
  split <;> simp [hf]

theorem State.endVerify_events (n : Index) (f : State → ReadRecord → State) (hf : ∀ s r, (f s r).events = s.events) :
    (s.endVerify n f).events = s.events := by
  simp only [State.endVerify]
  split <;> simp [hf]

@[simp] theorem State.abandonVerify_slot (n : Index) : (s.abandonVerify n).slot = s.slot := by
  simp only [State.abandonVerify]
  split <;> simp [State.endVerify_slot]

@[simp] theorem State.abandonVerify_control (n : Index) : (s.abandonVerify n).control = s.control := by
  simp only [State.abandonVerify]
  split <;> simp [State.endVerify_control]

@[simp] theorem State.freeOtherClean_port (n d : Index) (p : Nat) : (s.freeOtherClean n d p).port = s.port :=
  foldl_keeps (State.port) _ (fun s m => State.freeIf_port s _ m) _ s

@[simp] theorem State.freeOtherClean_engine (n d : Index) (p : Nat) : (s.freeOtherClean n d p).engine = s.engine :=
  foldl_keeps (State.engine) _ (fun s m => State.freeIf_engine s _ m) _ s

@[simp] theorem State.freeOtherClean_reads (n d : Index) (p : Nat) : (s.freeOtherClean n d p).reads = s.reads :=
  foldl_keeps (State.reads) _ (fun s m => State.freeIf_reads s _ m) _ s

@[simp] theorem State.freeOtherClean_bus (n d : Index) (p : Nat) : (s.freeOtherClean n d p).bus = s.bus :=
  foldl_keeps (State.bus) _ (fun s m => State.freeIf_bus s _ m) _ s

@[simp] theorem State.freeOtherClean_slot (n d : Index) (p : Nat) : (s.freeOtherClean n d p).slot = s.slot :=
  foldl_keeps (State.slot) _ (fun s m => State.freeIf_slot s _ m) _ s

@[simp] theorem State.freeOtherClean_control (n d : Index) (p : Nat) : (s.freeOtherClean n d p).control = s.control :=
  foldl_keeps (State.control) _ (fun s m => State.freeIf_control s _ m) _ s

@[simp] theorem State.freeOtherClean_events (n d : Index) (p : Nat) : (s.freeOtherClean n d p).events = s.events :=
  foldl_keeps (State.events) _ (fun s m => State.freeIf_events s _ m) _ s

@[simp] theorem State.flushClean_port (n : Index) : (s.flushClean n).port = s.port := by
  simp only [State.flushClean]
  split <;> simp

@[simp] theorem State.flushClean_engine (n : Index) : (s.flushClean n).engine = s.engine := by
  simp only [State.flushClean]
  split <;> simp

@[simp] theorem State.flushClean_reads (n : Index) : (s.flushClean n).reads = s.reads := by
  simp only [State.flushClean]
  split <;> simp

@[simp] theorem State.flushClean_bus (n : Index) : (s.flushClean n).bus = s.bus := by
  simp only [State.flushClean]
  split <;> simp

@[simp] theorem State.flushClean_slot (n : Index) : (s.flushClean n).slot = s.slot := by
  simp only [State.flushClean]
  split <;> simp

@[simp] theorem State.flushClean_control (n : Index) : (s.flushClean n).control = s.control := by
  simp only [State.flushClean]
  split <;> simp

@[simp] theorem State.flushClean_events (n : Index) : (s.flushClean n).events = s.events := by
  simp only [State.flushClean]
  split <;> simp

@[simp] theorem State.commitEnds_slot (n : Index) : (s.commitEnds n).slot = s.slot := by
  simp only [State.commitEnds]
  (repeat' split) <;> simp [foldl_keeps (State.slot) _ State.abandonVerify_slot]

@[simp] theorem State.commitEnds_control (n : Index) : (s.commitEnds n).control = s.control := by
  simp only [State.commitEnds]
  (repeat' split) <;> simp [foldl_keeps (State.control) _ State.abandonVerify_control]

@[simp] theorem State.retryCommit_port (n : Index) (outcome : Byte) : (s.retryCommit n outcome).port = s.port := by
  simp only [State.retryCommit]
  (repeat' split) <;> simp

@[simp] theorem State.retryCommit_reads (n : Index) (outcome : Byte) : (s.retryCommit n outcome).reads = s.reads := by
  simp only [State.retryCommit]
  (repeat' split) <;> simp

@[simp] theorem State.retryCommit_bus (n : Index) (outcome : Byte) : (s.retryCommit n outcome).bus = s.bus := by
  simp only [State.retryCommit]
  (repeat' split) <;> simp

@[simp] theorem State.retryCommit_slot (n : Index) (outcome : Byte) : (s.retryCommit n outcome).slot = s.slot := by
  simp only [State.retryCommit]
  (repeat' split) <;> simp

@[simp] theorem State.retryCommit_control (n : Index) (outcome : Byte) :
    (s.retryCommit n outcome).control = s.control := by
  simp only [State.retryCommit]
  (repeat' split) <;> simp

@[simp] theorem State.enterSilent_reads (d : Index) (own : Option Index) (cause : HoldCause) (kind : FaultKind) :
    (s.enterSilent d own cause kind).reads = s.reads := by
  simp only [State.enterSilent, State.select_reads]
  rw [foldl_keeps (State.reads), State.testWaiting_reads, foldl_keeps (State.reads)]
  · simp
  · intro s n
    split <;> simp
  · intro s n
    split <;> simp [State.endVerify_reads]

@[simp] theorem State.enterSilent_slot (d : Index) (own : Option Index) (cause : HoldCause) (kind : FaultKind) :
    (s.enterSilent d own cause kind).slot = s.slot := by
  simp only [State.enterSilent, State.select_slot]
  rw [foldl_keeps (State.slot), State.testWaiting_slot, foldl_keeps (State.slot)]
  · simp
  · intro s n
    split <;> simp
  · intro s n
    split <;> simp [State.endVerify_slot]

@[simp] theorem State.enterSilent_control (d : Index) (own : Option Index) (cause : HoldCause) (kind : FaultKind) :
    (s.enterSilent d own cause kind).control = s.control := by
  simp only [State.enterSilent, State.select_control]
  rw [foldl_keeps (State.control), State.testWaiting_control, foldl_keeps (State.control)]
  · simp
  · intro s n
    split <;> simp
  · intro s n
    split <;> simp [State.endVerify_control]

@[simp] theorem State.nackImmediate_reads (d : Index) (own : Option Index) (reopened : Bool) :
    (s.nackImmediate d own reopened).reads = s.reads := by
  simp only [State.nackImmediate]
  (repeat' split) <;> simp

@[simp] theorem State.nackImmediate_slot (d : Index) (own : Option Index) (reopened : Bool) :
    (s.nackImmediate d own reopened).slot = s.slot := by
  simp only [State.nackImmediate]
  (repeat' split) <;> simp

@[simp] theorem State.nackImmediate_control (d : Index) (own : Option Index) (reopened : Bool) :
    (s.nackImmediate d own reopened).control = s.control := by
  simp only [State.nackImmediate]
  (repeat' split) <;> simp

@[simp] theorem State.commitNacked_reads (n d : Index) (reopened : Bool) :
    (s.commitNacked n d reopened).reads = s.reads := by
  simp only [State.commitNacked]
  (repeat' split) <;> simp

@[simp] theorem State.commitNacked_slot (n d : Index) (reopened : Bool) :
    (s.commitNacked n d reopened).slot = s.slot := by
  simp only [State.commitNacked]
  (repeat' split) <;> simp

@[simp] theorem State.commitNacked_control (n d : Index) (reopened : Bool) :
    (s.commitNacked n d reopened).control = s.control := by
  simp only [State.commitNacked]
  (repeat' split) <;> simp

@[simp] theorem State.runsGoOn_slot (n : Index) (forced : Bool) (runs : List Run) :
    (s.runsGoOn n forced runs).slot = s.slot := by
  simp only [State.runsGoOn]
  split <;> simp

@[simp] theorem State.runsGoOn_control (n : Index) (forced : Bool) (runs : List Run) :
    (s.runsGoOn n forced runs).control = s.control := by
  simp only [State.runsGoOn]
  split <;> simp

@[simp] theorem State.failRecordRead_port : s.failRecordRead.port = s.port := by
  simp [State.failRecordRead]

@[simp] theorem State.failRecordRead_table : s.failRecordRead.table = s.table := by
  simp [State.failRecordRead]

@[simp] theorem State.failRecordRead_engine : s.failRecordRead.engine = s.engine := by
  simp [State.failRecordRead]

@[simp] theorem State.failRecordRead_reads : s.failRecordRead.reads = s.reads := by
  simp [State.failRecordRead]

@[simp] theorem State.failRecordRead_bus : s.failRecordRead.bus = s.bus := by
  simp [State.failRecordRead]

@[simp] theorem State.failRecordRead_slot : s.failRecordRead.slot = s.slot := by
  simp [State.failRecordRead]

@[simp] theorem State.failRecordRead_events : s.failRecordRead.events = s.events := by
  simp [State.failRecordRead]

@[simp] theorem State.presentRecordRead_port : s.presentRecordRead.port = s.port := by
  simp only [State.presentRecordRead]
  split <;> simp

@[simp] theorem State.presentRecordRead_table : s.presentRecordRead.table = s.table := by
  simp only [State.presentRecordRead]
  split <;> simp

@[simp] theorem State.presentRecordRead_engine : s.presentRecordRead.engine = s.engine := by
  simp only [State.presentRecordRead]
  split <;> simp

@[simp] theorem State.presentRecordRead_reads : s.presentRecordRead.reads = s.reads := by
  simp only [State.presentRecordRead]
  split <;> simp

@[simp] theorem State.presentRecordRead_slot : s.presentRecordRead.slot = s.slot := by
  simp only [State.presentRecordRead]
  split <;> simp

@[simp] theorem State.presentRecordRead_events : s.presentRecordRead.events = s.events := by
  simp only [State.presentRecordRead]
  split <;> simp

@[simp] theorem State.retryRecordRead_port : s.retryRecordRead.port = s.port := by
  simp only [State.retryRecordRead]
  (repeat' split) <;> simp

@[simp] theorem State.retryRecordRead_table : s.retryRecordRead.table = s.table := by
  simp only [State.retryRecordRead]
  (repeat' split) <;> simp

@[simp] theorem State.retryRecordRead_engine : s.retryRecordRead.engine = s.engine := by
  simp only [State.retryRecordRead]
  (repeat' split) <;> simp

@[simp] theorem State.retryRecordRead_reads : s.retryRecordRead.reads = s.reads := by
  simp only [State.retryRecordRead]
  (repeat' split) <;> simp

@[simp] theorem State.retryRecordRead_slot : s.retryRecordRead.slot = s.slot := by
  simp only [State.retryRecordRead]
  (repeat' split) <;> simp

@[simp] theorem State.retryRecordRead_events : s.retryRecordRead.events = s.events := by
  simp only [State.retryRecordRead]
  (repeat' split) <;> simp

@[simp] theorem State.nackRecordRead_port : s.nackRecordRead.port = s.port := by
  simp [State.nackRecordRead]

@[simp] theorem State.nackRecordRead_table : s.nackRecordRead.table = s.table := by
  simp [State.nackRecordRead]

@[simp] theorem State.nackRecordRead_engine : s.nackRecordRead.engine = s.engine := by
  simp [State.nackRecordRead]

@[simp] theorem State.nackRecordRead_reads : s.nackRecordRead.reads = s.reads := by
  simp [State.nackRecordRead]

@[simp] theorem State.nackRecordRead_bus : s.nackRecordRead.bus = s.bus := by
  simp [State.nackRecordRead]

@[simp] theorem State.nackRecordRead_slot : s.nackRecordRead.slot = s.slot := by
  simp [State.nackRecordRead]

@[simp] theorem State.nackRecordRead_events : s.nackRecordRead.events = s.events := by
  simp [State.nackRecordRead]

@[simp] theorem State.dropRecordRead_port : s.dropRecordRead.port = s.port := by
  simp [State.dropRecordRead]

@[simp] theorem State.dropRecordRead_table : s.dropRecordRead.table = s.table := by
  simp [State.dropRecordRead]

@[simp] theorem State.dropRecordRead_engine : s.dropRecordRead.engine = s.engine := by
  simp [State.dropRecordRead]

@[simp] theorem State.dropRecordRead_reads : s.dropRecordRead.reads = s.reads := by
  simp [State.dropRecordRead]

@[simp] theorem State.dropRecordRead_slot : s.dropRecordRead.slot = s.slot := by
  simp [State.dropRecordRead]

@[simp] theorem State.dropRecordRead_events : s.dropRecordRead.events = s.events := by
  simp [State.dropRecordRead]

@[simp] theorem State.countGrant_port (g : Grant) : (s.countGrant g).port = s.port := by
  simp only [State.countGrant]
  split <;> simp

@[simp] theorem State.countGrant_table (g : Grant) : (s.countGrant g).table = s.table := by
  simp only [State.countGrant]
  split <;> simp

@[simp] theorem State.countGrant_engine (g : Grant) : (s.countGrant g).engine = s.engine := by
  simp only [State.countGrant]
  split <;> simp

@[simp] theorem State.countGrant_reads (g : Grant) : (s.countGrant g).reads = s.reads := by
  simp only [State.countGrant]
  split <;> simp

@[simp] theorem State.countGrant_slot (g : Grant) : (s.countGrant g).slot = s.slot := by
  simp only [State.countGrant]
  split <;> simp

@[simp] theorem State.countGrant_control (g : Grant) : (s.countGrant g).control = s.control := by
  simp only [State.countGrant]
  split <;> simp

@[simp] theorem State.countGrant_events (g : Grant) : (s.countGrant g).events = s.events := by
  simp only [State.countGrant]
  split <;> simp

@[simp] theorem State.beginTransaction_port (job : Job) (target : BitVec 7) (read : Bool)
    (remaining : Option Nat) (toSend : List Byte) :
    (s.beginTransaction job target read remaining toSend).port = s.port := by
  simp [State.beginTransaction]

@[simp] theorem State.beginTransaction_table (job : Job) (target : BitVec 7) (read : Bool)
    (remaining : Option Nat) (toSend : List Byte) :
    (s.beginTransaction job target read remaining toSend).table = s.table := by
  simp [State.beginTransaction]

@[simp] theorem State.beginTransaction_engine (job : Job) (target : BitVec 7) (read : Bool)
    (remaining : Option Nat) (toSend : List Byte) :
    (s.beginTransaction job target read remaining toSend).engine = s.engine := by
  simp [State.beginTransaction]

@[simp] theorem State.beginTransaction_reads (job : Job) (target : BitVec 7) (read : Bool)
    (remaining : Option Nat) (toSend : List Byte) :
    (s.beginTransaction job target read remaining toSend).reads = s.reads := by
  simp [State.beginTransaction]

@[simp] theorem State.beginTransaction_slot (job : Job) (target : BitVec 7) (read : Bool)
    (remaining : Option Nat) (toSend : List Byte) :
    (s.beginTransaction job target read remaining toSend).slot = s.slot := by
  simp [State.beginTransaction]

@[simp] theorem State.beginTransaction_control (job : Job) (target : BitVec 7) (read : Bool)
    (remaining : Option Nat) (toSend : List Byte) :
    (s.beginTransaction job target read remaining toSend).control = s.control := by
  simp [State.beginTransaction]

@[simp] theorem State.beginTransaction_events (job : Job) (target : BitVec 7) (read : Bool)
    (remaining : Option Nat) (toSend : List Byte) :
    (s.beginTransaction job target read remaining toSend).events = s.events := by
  simp [State.beginTransaction]

@[simp] theorem State.setDue_port (d : Index) (due : Bool) : (s.setDue d due).port = s.port := by
  simp only [State.setDue]
  split <;> simp

@[simp] theorem State.setDue_table (d : Index) (due : Bool) : (s.setDue d due).table = s.table := by
  simp only [State.setDue]
  split <;> simp

@[simp] theorem State.setDue_reads (d : Index) (due : Bool) : (s.setDue d due).reads = s.reads := by
  simp only [State.setDue]
  split <;> simp

@[simp] theorem State.setDue_bus (d : Index) (due : Bool) : (s.setDue d due).bus = s.bus := by
  simp only [State.setDue]
  split <;> simp

@[simp] theorem State.setDue_slot (d : Index) (due : Bool) : (s.setDue d due).slot = s.slot := by
  simp only [State.setDue]
  split <;> simp

@[simp] theorem State.setDue_control (d : Index) (due : Bool) : (s.setDue d due).control = s.control := by
  simp only [State.setDue]
  split <;> simp

@[simp] theorem State.setDue_events (d : Index) (due : Bool) : (s.setDue d due).events = s.events := by
  simp only [State.setDue]
  split <;> simp

@[simp] theorem State.grantCommit_port (n : Index) : (s.grantCommit n).port = s.port := by
  simp only [State.grantCommit]
  (repeat' split) <;> simp

@[simp] theorem State.grantCommit_table (n : Index) : (s.grantCommit n).table = s.table := by
  simp only [State.grantCommit]
  (repeat' split) <;> simp

@[simp] theorem State.grantCommit_slot (n : Index) : (s.grantCommit n).slot = s.slot := by
  simp only [State.grantCommit]
  (repeat' split) <;> simp

@[simp] theorem State.grantCommit_control (n : Index) : (s.grantCommit n).control = s.control := by
  simp only [State.grantCommit]
  (repeat' split) <;> simp

@[simp] theorem State.grantCommit_events (n : Index) : (s.grantCommit n).events = s.events := by
  simp only [State.grantCommit]
  (repeat' split) <;> simp

@[simp] theorem State.grantStream_table (d : Index) (x : Nat) : (s.grantStream d x).table = s.table := by
  simp only [State.grantStream]
  (repeat' split) <;> simp

@[simp] theorem State.grantStream_engine (d : Index) (x : Nat) : (s.grantStream d x).engine = s.engine := by
  simp only [State.grantStream]
  (repeat' split) <;> simp

@[simp] theorem State.grantStream_slot (d : Index) (x : Nat) : (s.grantStream d x).slot = s.slot := by
  simp only [State.grantStream]
  (repeat' split) <;> simp

@[simp] theorem State.grantStream_control (d : Index) (x : Nat) : (s.grantStream d x).control = s.control := by
  simp only [State.grantStream]
  (repeat' split) <;> simp

@[simp] theorem State.grantStream_events (d : Index) (x : Nat) : (s.grantStream d x).events = s.events := by
  simp only [State.grantStream]
  (repeat' split) <;> simp

@[simp] theorem State.grantVerify_table (n : Index) : (s.grantVerify n).table = s.table := by
  simp only [State.grantVerify]
  (repeat' split) <;> simp

@[simp] theorem State.grantVerify_engine (n : Index) : (s.grantVerify n).engine = s.engine := by
  simp only [State.grantVerify]
  (repeat' split) <;> simp

@[simp] theorem State.grantVerify_reads (n : Index) : (s.grantVerify n).reads = s.reads := by
  simp only [State.grantVerify]
  (repeat' split) <;> simp

@[simp] theorem State.grantVerify_slot (n : Index) : (s.grantVerify n).slot = s.slot := by
  simp only [State.grantVerify]
  (repeat' split) <;> simp

@[simp] theorem State.grantVerify_control (n : Index) : (s.grantVerify n).control = s.control := by
  simp only [State.grantVerify]
  (repeat' split) <;> simp

@[simp] theorem State.grantVerify_events (n : Index) : (s.grantVerify n).events = s.events := by
  simp only [State.grantVerify]
  (repeat' split) <;> simp

@[simp] theorem State.grantProbe_port : s.grantProbe.port = s.port := by
  simp only [State.grantProbe]
  split <;> simp

@[simp] theorem State.grantProbe_table : s.grantProbe.table = s.table := by
  simp only [State.grantProbe]
  split <;> simp

@[simp] theorem State.grantProbe_reads : s.grantProbe.reads = s.reads := by
  simp only [State.grantProbe]
  split <;> simp

@[simp] theorem State.grantProbe_slot : s.grantProbe.slot = s.slot := by
  simp only [State.grantProbe]
  split <;> simp

@[simp] theorem State.grantProbe_control : s.grantProbe.control = s.control := by
  simp only [State.grantProbe]
  split <;> simp

@[simp] theorem State.grantProbe_events : s.grantProbe.events = s.events := by
  simp only [State.grantProbe]
  split <;> simp

@[simp] theorem State.grantDirect_port : s.grantDirect.port = s.port := by
  simp only [State.grantDirect]
  (repeat' split) <;> simp

@[simp] theorem State.grantDirect_table : s.grantDirect.table = s.table := by
  simp only [State.grantDirect]
  (repeat' split) <;> simp

@[simp] theorem State.grantDirect_engine : s.grantDirect.engine = s.engine := by
  simp only [State.grantDirect]
  (repeat' split) <;> simp

@[simp] theorem State.grantDirect_reads : s.grantDirect.reads = s.reads := by
  simp only [State.grantDirect]
  (repeat' split) <;> simp

@[simp] theorem State.grantDirect_control : s.grantDirect.control = s.control := by
  simp only [State.grantDirect]
  (repeat' split) <;> simp

@[simp] theorem State.grantDirect_events : s.grantDirect.events = s.events := by
  simp only [State.grantDirect]
  (repeat' split) <;> simp

@[simp] theorem State.grantTo_table (g : Grant) : (s.grantTo g).table = s.table := by
  simp only [State.grantTo]
  (repeat' split) <;> simp

@[simp] theorem State.grantTo_control (g : Grant) : (s.grantTo g).control = s.control := by
  simp only [State.grantTo]
  (repeat' split) <;> simp

@[simp] theorem State.grantTo_events (g : Grant) : (s.grantTo g).events = s.events := by
  simp only [State.grantTo]
  (repeat' split) <;> simp

@[simp] theorem State.grant_table (g : Grant) (status : BusStatus) : (s.grant g status).table = s.table := by
  simp [State.grant]

@[simp] theorem State.grant_control (g : Grant) (status : BusStatus) : (s.grant g status).control = s.control := by
  simp [State.grant]

@[simp] theorem State.grant_events (g : Grant) (status : BusStatus) : (s.grant g status).events = s.events := by
  simp [State.grant]

@[simp] theorem State.requeueHead_port (n : Index) : (s.requeueHead n).port = s.port := by
  simp [State.requeueHead]

@[simp] theorem State.requeueHead_table (n : Index) : (s.requeueHead n).table = s.table := by
  simp [State.requeueHead]

@[simp] theorem State.requeueHead_reads (n : Index) : (s.requeueHead n).reads = s.reads := by
  simp [State.requeueHead]

@[simp] theorem State.requeueHead_bus (n : Index) : (s.requeueHead n).bus = s.bus := by
  simp [State.requeueHead]

@[simp] theorem State.requeueHead_slot (n : Index) : (s.requeueHead n).slot = s.slot := by
  simp [State.requeueHead]

@[simp] theorem State.requeueHead_control (n : Index) : (s.requeueHead n).control = s.control := by
  simp [State.requeueHead]

@[simp] theorem State.requeueHead_events (n : Index) : (s.requeueHead n).events = s.events := by
  simp [State.requeueHead]

@[simp] theorem State.stickBus_port : s.stickBus.port = s.port := by
  simp [State.stickBus]

@[simp] theorem State.stickBus_table : s.stickBus.table = s.table := by
  simp [State.stickBus]

@[simp] theorem State.stickBus_engine : s.stickBus.engine = s.engine := by
  simp [State.stickBus]

@[simp] theorem State.stickBus_reads : s.stickBus.reads = s.reads := by
  simp [State.stickBus]

@[simp] theorem State.stickBus_slot : s.stickBus.slot = s.slot := by
  simp [State.stickBus]

@[simp] theorem State.stickBus_control : s.stickBus.control = s.control := by
  simp [State.stickBus]

@[simp] theorem State.stickBus_events : s.stickBus.events = s.events := by
  simp [State.stickBus]

/-- An abandonment with no access held by the mode leaves this alone. -/
theorem State.abandonIfHeld_port (h : s.heldByMode = false) : s.abandonIfHeld.port = s.port := by
  have hh : (s.dropRecordRead.setMode .running).heldByMode = false := by simpa [State.heldByMode] using h
  simp only [State.abandonIfHeld]
  (repeat' split) <;> simp_all

/-- An abandonment with no access held by the mode leaves this alone. -/
theorem State.abandonIfHeld_table (h : s.heldByMode = false) : s.abandonIfHeld.table = s.table := by
  have hh : (s.dropRecordRead.setMode .running).heldByMode = false := by simpa [State.heldByMode] using h
  simp only [State.abandonIfHeld]
  (repeat' split) <;> simp_all

/-- An abandonment with no access held by the mode leaves this alone. -/
theorem State.abandonIfHeld_engine (h : s.heldByMode = false) : s.abandonIfHeld.engine = s.engine := by
  have hh : (s.dropRecordRead.setMode .running).heldByMode = false := by simpa [State.heldByMode] using h
  simp only [State.abandonIfHeld]
  (repeat' split) <;> simp_all

/-- An abandonment with no access held by the mode leaves this alone. -/
theorem State.abandonIfHeld_reads (h : s.heldByMode = false) : s.abandonIfHeld.reads = s.reads := by
  have hh : (s.dropRecordRead.setMode .running).heldByMode = false := by simpa [State.heldByMode] using h
  simp only [State.abandonIfHeld]
  (repeat' split) <;> simp_all

@[simp] theorem State.abandonIfHeld_slot : s.abandonIfHeld.slot = s.slot := by
  simp only [State.abandonIfHeld]
  (repeat' split) <;> simp

@[simp] theorem State.enterReading_port : s.enterReading.port = s.port := by
  simp [State.enterReading]

@[simp] theorem State.enterReading_engine : s.enterReading.engine = s.engine := by
  simp [State.enterReading]

@[simp] theorem State.enterReading_slot : s.enterReading.slot = s.slot := by
  simp [State.enterReading]

@[simp] theorem State.enterReading_events : s.enterReading.events = s.events := by
  simp [State.enterReading]

@[simp] theorem State.leaveSequence_port : s.leaveSequence.port = s.port := by
  simp only [State.leaveSequence]
  split <;> simp

@[simp] theorem State.leaveSequence_engine : s.leaveSequence.engine = s.engine := by
  simp only [State.leaveSequence]
  split <;> simp

@[simp] theorem State.leaveSequence_slot : s.leaveSequence.slot = s.slot := by
  simp only [State.leaveSequence]
  split <;> simp

@[simp] theorem State.leaveSequence_events : s.leaveSequence.events = s.events := by
  simp only [State.leaveSequence]
  split <;> simp

@[simp] theorem State.advanceReload_port : s.advanceReload.port = s.port := by
  simp only [State.advanceReload]
  (repeat' split) <;> simp

@[simp] theorem State.advanceReload_engine : s.advanceReload.engine = s.engine := by
  simp only [State.advanceReload]
  (repeat' split) <;> simp

@[simp] theorem State.advanceReload_slot : s.advanceReload.slot = s.slot := by
  simp only [State.advanceReload]
  (repeat' split) <;> simp

@[simp] theorem State.advanceReload_events : s.advanceReload.events = s.events := by
  simp only [State.advanceReload]
  (repeat' split) <;> simp

@[simp] theorem State.enterSafe_port : s.enterSafe.port = s.port := by
  simp [State.enterSafe]

@[simp] theorem State.enterSafe_table : s.enterSafe.table = s.table := by
  simp [State.enterSafe]

@[simp] theorem State.enterSafe_engine : s.enterSafe.engine = s.engine := by
  simp [State.enterSafe]

@[simp] theorem State.enterSafe_reads : s.enterSafe.reads = s.reads := by
  simp [State.enterSafe]

@[simp] theorem State.enterSafe_bus : s.enterSafe.bus = s.bus := by
  simp [State.enterSafe]

@[simp] theorem State.enterSafe_slot : s.enterSafe.slot = s.slot := by
  simp [State.enterSafe]

@[simp] theorem State.endFlush_port : s.endFlush.port = s.port := by
  simp only [State.endFlush]
  (repeat' split) <;> simp

@[simp] theorem State.endFlush_table : s.endFlush.table = s.table := by
  simp only [State.endFlush]
  (repeat' split) <;> simp

@[simp] theorem State.endFlush_engine : s.endFlush.engine = s.engine := by
  simp only [State.endFlush]
  (repeat' split) <;> simp

@[simp] theorem State.endFlush_reads : s.endFlush.reads = s.reads := by
  simp only [State.endFlush]
  (repeat' split) <;> simp

@[simp] theorem State.endFlush_bus : s.endFlush.bus = s.bus := by
  simp only [State.endFlush]
  (repeat' split) <;> simp

@[simp] theorem State.endFlush_slot : s.endFlush.slot = s.slot := by
  simp only [State.endFlush]
  (repeat' split) <;> simp

@[simp] theorem State.endFlushWatch_port : s.endFlushWatch.port = s.port := by
  simp only [State.endFlushWatch]
  split <;> simp

@[simp] theorem State.endFlushWatch_engine : s.endFlushWatch.engine = s.engine := by
  simp only [State.endFlushWatch]
  split <;> simp

@[simp] theorem State.endFlushWatch_reads : s.endFlushWatch.reads = s.reads := by
  simp only [State.endFlushWatch]
  split <;> simp

@[simp] theorem State.endFlushWatch_bus : s.endFlushWatch.bus = s.bus := by
  simp only [State.endFlushWatch]
  split <;> simp

@[simp] theorem State.endFlushWatch_slot : s.endFlushWatch.slot = s.slot := by
  simp only [State.endFlushWatch]
  split <;> simp

@[simp] theorem State.endFlushWatch_control : s.endFlushWatch.control = s.control := by
  simp only [State.endFlushWatch]
  split <;> simp

@[simp] theorem State.rejectLayout_port (x : Rejection) : (s.rejectLayout x).port = s.port := by
  simp [State.rejectLayout]

@[simp] theorem State.rejectLayout_table (x : Rejection) : (s.rejectLayout x).table = s.table := by
  simp [State.rejectLayout]

@[simp] theorem State.rejectLayout_engine (x : Rejection) : (s.rejectLayout x).engine = s.engine := by
  simp [State.rejectLayout]

@[simp] theorem State.rejectLayout_reads (x : Rejection) : (s.rejectLayout x).reads = s.reads := by
  simp [State.rejectLayout]

@[simp] theorem State.rejectLayout_bus (x : Rejection) : (s.rejectLayout x).bus = s.bus := by
  simp [State.rejectLayout]

@[simp] theorem State.rejectLayout_slot (x : Rejection) : (s.rejectLayout x).slot = s.slot := by
  simp [State.rejectLayout]

@[simp] theorem State.rejectLayout_control (x : Rejection) : (s.rejectLayout x).control = s.control := by
  simp [State.rejectLayout]

@[simp] theorem State.clearPasses_port : s.clearPasses.port = s.port := by
  simp only [State.clearPasses]
  (repeat' split) <;> simp

@[simp] theorem State.clearPasses_table : s.clearPasses.table = s.table := by
  simp only [State.clearPasses]
  (repeat' split) <;> simp

@[simp] theorem State.clearPasses_engine : s.clearPasses.engine = s.engine := by
  simp only [State.clearPasses]
  (repeat' split) <;> simp

@[simp] theorem State.clearPasses_reads : s.clearPasses.reads = s.reads := by
  simp only [State.clearPasses]
  (repeat' split) <;> simp

@[simp] theorem State.clearPasses_slot : s.clearPasses.slot = s.slot := by
  simp only [State.clearPasses]
  (repeat' split) <;> simp

@[simp] theorem State.clearPasses_control : s.clearPasses.control = s.control := by
  simp only [State.clearPasses]
  (repeat' split) <;> simp

@[simp] theorem State.clearPasses_events : s.clearPasses.events = s.events := by
  simp only [State.clearPasses]
  (repeat' split) <;> simp

/-- Outside RELOADING the end of a command leaves this alone. -/
theorem State.settle_table (h : s.control.mode.isReloading = false) : s.settle.table = s.table := by
  have ha : s.testWaiting.abandonIfHeld = s.testWaiting := by simp [State.abandonIfHeld, h]
  simp [State.settle, ha]

/-- Outside RELOADING the end of a command leaves this alone. -/
theorem State.settle_engine (h : s.control.mode.isReloading = false) : s.settle.engine = s.engine := by
  have ha : s.testWaiting.abandonIfHeld = s.testWaiting := by simp [State.abandonIfHeld, h]
  simp [State.settle, ha]

@[simp] theorem State.settle_slot : s.settle.slot = s.slot := by
  simp [State.settle]

@[simp] theorem State.streamPast_port (p : StreamPos) : (s.streamPast p).port = s.port := by
  simp only [State.streamPast]
  split <;> simp

@[simp] theorem State.streamPast_table (p : StreamPos) : (s.streamPast p).table = s.table := by
  simp only [State.streamPast]
  split <;> simp

@[simp] theorem State.streamPast_engine (p : StreamPos) : (s.streamPast p).engine = s.engine := by
  simp only [State.streamPast]
  split <;> simp

@[simp] theorem State.streamPast_slot (p : StreamPos) : (s.streamPast p).slot = s.slot := by
  simp only [State.streamPast]
  split <;> simp

@[simp] theorem State.streamPast_control (p : StreamPos) : (s.streamPast p).control = s.control := by
  simp only [State.streamPast]
  split <;> simp

@[simp] theorem State.streamPast_events (p : StreamPos) : (s.streamPast p).events = s.events := by
  simp only [State.streamPast]
  split <;> simp

@[simp] theorem State.streamFree_port : s.streamFree.port = s.port := by
  simp only [State.streamFree]
  split <;> simp

@[simp] theorem State.streamFree_table : s.streamFree.table = s.table := by
  simp only [State.streamFree]
  split <;> simp

@[simp] theorem State.streamFree_engine : s.streamFree.engine = s.engine := by
  simp only [State.streamFree]
  split <;> simp

@[simp] theorem State.streamFree_slot : s.streamFree.slot = s.slot := by
  simp only [State.streamFree]
  split <;> simp

@[simp] theorem State.streamFree_control : s.streamFree.control = s.control := by
  simp only [State.streamFree]
  split <;> simp

@[simp] theorem State.streamFree_events : s.streamFree.events = s.events := by
  simp only [State.streamFree]
  split <;> simp

@[simp] theorem State.requestVerifies_port (d : Index) : (s.requestVerifies d).port = s.port :=
  foldl_keeps (State.port) _ (fun s n => by split <;> simp) _ s

@[simp] theorem State.requestVerifies_table (d : Index) : (s.requestVerifies d).table = s.table :=
  foldl_keeps (State.table) _ (fun s n => by split <;> simp) _ s

@[simp] theorem State.requestVerifies_engine (d : Index) : (s.requestVerifies d).engine = s.engine :=
  foldl_keeps (State.engine) _ (fun s n => by split <;> simp) _ s

@[simp] theorem State.requestVerifies_reads (d : Index) : (s.requestVerifies d).reads = s.reads :=
  foldl_keeps (State.reads) _ (fun s n => by split <;> simp) _ s

@[simp] theorem State.requestVerifies_slot (d : Index) : (s.requestVerifies d).slot = s.slot :=
  foldl_keeps (State.slot) _ (fun s n => by split <;> simp) _ s

@[simp] theorem State.requestVerifies_control (d : Index) : (s.requestVerifies d).control = s.control :=
  foldl_keeps (State.control) _ (fun s n => by split <;> simp) _ s

@[simp] theorem State.requestVerifies_events (d : Index) : (s.requestVerifies d).events = s.events :=
  foldl_keeps (State.events) _ (fun s n => by split <;> simp) _ s

@[simp] theorem State.resumeCommit_slot (d : Index) : (s.resumeCommit d).slot = s.slot := by
  simp only [State.resumeCommit]
  (repeat' split) <;> simp

@[simp] theorem State.resumeCommit_control (d : Index) : (s.resumeCommit d).control = s.control := by
  simp only [State.resumeCommit]
  (repeat' split) <;> simp

end Sys2Proof.Machine
end

