-- ==== Sys2Proof/Laws/Buffers.lean ====
section
/-! SUPPORT. What the named operations on buffers, devices and events do, said once for each: a later proof cites these
in place of unfolding the operation. -/

namespace Sys2Proof.Machine

/-- A vector read at an index is its element there. -/
theorem vector_get {α : Type} {n : Nat} (v : Vector α n) (i : Fin n) : v.get i = v[i.val] := rfl

variable (s : State)

/-! ### Buffers -/

@[simp] theorem State.buffer_setBuffer (n : Index) (b : Buffer) : (s.setBuffer n b).buffer n = b := by
  simp [State.buffer, State.setBuffer, vector_get]

theorem State.buffer_setBuffer_ne (n m : Index) (b : Buffer) (h : m ≠ n) : (s.setBuffer n b).buffer m = s.buffer m := by
  have hv : n.val ≠ m.val := fun e => h (Fin.ext e.symm)
  simp [State.buffer, State.setBuffer, vector_get, hv]

@[simp] theorem State.buffer_updateHold (n : Index) (f : PageHold → PageHold) :
    (s.updateHold n f).buffer n = { s.buffer n with hold := (s.buffer n).hold.map f } := by
  simp [State.updateHold]

theorem State.buffer_updateHold_ne (n m : Index) (f : PageHold → PageHold) (h : m ≠ n) :
    (s.updateHold n f).buffer m = s.buffer m := by
  simp [State.updateHold, State.buffer_setBuffer_ne _ _ _ _ h]

@[simp] theorem State.buffer_setImage (n : Index) (im : Image) :
    (s.setImage n im).buffer n = { s.buffer n with image := im } := by
  simp [State.setImage]

theorem State.buffer_setImage_ne (n m : Index) (im : Image) (h : m ≠ n) : (s.setImage n im).buffer m = s.buffer m := by
  simp [State.setImage, State.buffer_setBuffer_ne _ _ _ _ h]

/-- A buffer that stands the same in two tables is the same buffer. -/
theorem State.buffer_congr (t : State) (h : s.table = t.table) (n : Index) : s.buffer n = t.buffer n := by
  simp [State.buffer, h]

/-- R34: the buffer freed keeps its image and holds no page. -/
theorem State.buffer_freeBuffer (n : Index) : (s.freeBuffer n).buffer n = { s.buffer n with hold := none } := by
  simp only [State.freeBuffer]
  split
  · rename_i h
    cases hb : s.buffer n
    simp_all
  · simp [State.buffer]

/-- R20, R34: the other buffers close up. -/
theorem State.buffer_freeBuffer_ne (n m : Index) (gone : PageHold) (h : m ≠ n) (hg : (s.buffer n).hold = some gone) :
    (s.freeBuffer n).buffer m = { s.buffer m with hold := (s.buffer m).hold.map gone.closeUp } := by
  simp only [State.freeBuffer, hg]
  simp [State.buffer, h]

/-- R33: a buffer in a dirty state short of HELD enters HELD with the cause. -/
theorem State.buffer_holdBuffer (cause : HoldCause) (n : Index) (h : (s.bufferState n).uncommitted) :
    (s.holdBuffer cause n).buffer n = { s.buffer n with hold := (s.buffer n).hold.map (PageHold.toHeld cause) } := by
  simp only [State.holdBuffer, h, if_true]
  rw [State.buffer_congr _ (s.updateHold n (PageHold.toHeld cause) |>.setQueue
    ((s.updateHold n (PageHold.toHeld cause)).table.queue.filter (· != n))) (by simp)]
  rw [← s.buffer_updateHold]
  simp [State.buffer]

/-- Any other buffer is refused HELD and stays as it is. -/
theorem State.holdBuffer_of_not (cause : HoldCause) (n : Index) (h : (s.bufferState n).uncommitted = false) :
    s.holdBuffer cause n = s := by
  simp [State.holdBuffer, h]

/-- R30: only a GATHER buffer is sealed. -/
theorem State.sealBuffer_of_not (n : Index) (h : s.bufferState n ≠ .gather) : s.sealBuffer n = s := by
  simp [State.sealBuffer, h]

/-- R30, R44: the seal of a GATHER buffer is its entry in the queue and one selection. -/
theorem State.sealBuffer_of_gather (n : Index) (h : s.bufferState n = .gather) :
    s.sealBuffer n = (s.enqueue n).select := by
  simp [State.sealBuffer, h]

/-! ### Devices -/

@[simp] theorem State.record_setRecord (d : Index) (r : DeviceRecord) : (s.setRecord d r).record d = r := by
  simp [State.record, State.setRecord, vector_get]

theorem State.record_setRecord_ne (d e : Index) (r : DeviceRecord) (h : e ≠ d) :
    (s.setRecord d r).record e = s.record e := by
  have hv : d.val ≠ e.val := fun x => h (Fin.ext x.symm)
  simp [State.record, State.setRecord, vector_get, hv]

/-! ### The Event Unit -/

/-- R159: an arrival raises its own count by one, up to 255. -/
theorem EventUnit.count_arrive (e : EventUnit) (k : EventKind) :
    (e.arrive k).count k.number = min 255 (e.count k.number + 1) := by
  simp [EventUnit.count, EventUnit.arrive, Config.countLimit, vector_get]

/-- R159: it changes no other count. -/
theorem EventUnit.count_arrive_ne (e : EventUnit) (k : EventKind) (j : Fin 16) (h : j ≠ k.number) :
    (e.arrive k).count j = e.count j := by
  have hv : k.number.val ≠ j.val := fun x => h (Fin.ext x.symm)
  simp [EventUnit.count, EventUnit.arrive, vector_get, hv]

@[simp] theorem EventUnit.arrive_log (e : EventUnit) (k : EventKind) : (e.arrive k).log = e.log := rfl
@[simp] theorem EventUnit.arrive_counter (e : EventUnit) (k : EventKind) : (e.arrive k).counter = e.counter := rfl
@[simp] theorem EventUnit.arrive_overflow (e : EventUnit) (k : EventKind) : (e.arrive k).overflow = e.overflow := rfl

/-- R162: with room in the log a fault is appended with the number the counter shows. -/
theorem EventUnit.append_log (e : EventUnit) (f : FaultInfo) (h : e.log.length < 8) :
    (e.append f).log = e.log ++ [{ number := e.counter, time := e.uptime, info := f }] := by
  simp [EventUnit.append, Config.logDepth, h]

/-- R163: with the log full a fault is dropped and counted as an overflow. -/
theorem EventUnit.append_full (e : EventUnit) (f : FaultInfo) (h : ¬e.log.length < 8) :
    e.append f = { e with overflow := min 255 (e.overflow + 1) }.arrive .logOverflow := by
  simp [EventUnit.append, Config.logDepth, Config.countLimit, h]

/-- What the blocks do to the Event Unit in the course of a command: arrivals and faults, one after another. -/
inductive EventUnit.Grows (e : EventUnit) : EventUnit → Prop
  | same : Grows e e
  | arrive (f : EventUnit) (k : EventKind) : Grows e f → Grows e (f.arrive k)
  | append (f : EventUnit) (x : FaultInfo) : Grows e f → Grows e (f.append x)

/-- Growth goes on from growth. -/
theorem EventUnit.Grows.trans {e f g : EventUnit} (h : e.Grows f) (k : f.Grows g) : e.Grows g := by
  induction k with
  | same => exact h
  | arrive _ k _ ih => exact .arrive _ k ih
  | append _ x _ ih => exact .append _ x ih

/-! ### The end of a command -/

theorem State.testWaiting_of_idle (h : s.port = .idle) : s.testWaiting = s := by
  simp [State.testWaiting, h]

theorem State.testWaiting_of_answered (req : HostRequest) (a : Answer) (h : s.port = .answered req a) :
    s.testWaiting = s := by
  simp [State.testWaiting, h]

theorem State.testWaiting_of_mode (req : HostRequest) (h : s.port = .waiting req .mode) : s.testWaiting = s := by
  simp [State.testWaiting, h]

theorem State.abandonIfHeld_of_not (h : s.control.mode.isReloading = false) : s.abandonIfHeld = s := by
  simp [State.abandonIfHeld, h]

theorem State.parkedCloses_of_not (h : ∀ p d, s.reads.stream ≠ .parked p d) : s.parkedCloses = s := by
  unfold State.parkedCloses
  split
  · rename_i p d hp
    exact absurd hp (h p d)
  · rfl
  · rfl
  · rfl
  · rfl

/-- With no access waiting, outside RELOADING and with no stream parked, a command ends with the pass counts alone. -/
theorem State.settle_quiet (hp : ∀ req h, s.port ≠ .waiting req h) (hm : s.control.mode.isReloading = false)
    (hs : ∀ p d, s.reads.stream ≠ .parked p d) : s.settle = s.clearPasses := by
  have ht : s.testWaiting = s := by
    unfold State.testWaiting
    split
    · rename_i req t h; exact absurd h (hp _ _)
    · rename_i req r h; exact absurd h (hp _ _)
    · rfl
    · rfl
    · rfl
  simp [State.settle, ht, s.abandonIfHeld_of_not hm, s.parkedCloses_of_not hs]

end Sys2Proof.Machine
end

