-- ==== Sys2Proof/Laws/Events.lean ====
section
/-! SUPPORT. What each operation does to the Event Unit: it adds arrivals and faults, and nothing else. -/

namespace Sys2Proof.Machine

/-- A fold of operations that grow the Event Unit grows it. -/
theorem foldl_grows {α : Type} (f : State → α → State)
    (hf : ∀ e s a, EventUnit.Grows e s.events → EventUnit.Grows e (f s a).events) (xs : List α) (e : EventUnit) (s : State)
    (h : e.Grows s.events) : e.Grows (xs.foldl f s).events := by
  induction xs generalizing s with
  | nil => exact h
  | cons x xs ih => exact ih _ (hf _ _ _ h)


@[simp] theorem EventUnit.arrive_grows (f e : EventUnit) (h : e.Grows f) (k : EventKind) : e.Grows (f.arrive k) :=
  .arrive _ k h

@[simp] theorem EventUnit.append_grows (f e : EventUnit) (h : e.Grows f) (x : FaultInfo) : e.Grows (f.append x) :=
  .append _ x h

variable (s : State)


/-- A buffer obtained for a page is the table's alone. -/
theorem State.obtain_events (n : Index) (t : State) (h : s.obtain = some (n, t)) : t.events = s.events := by
  simp only [State.obtain] at h
  split at h
  · cases h; rfl
  · cases he : s.evictable with
    | none => simp [he] at h
    | some m =>
      simp only [he, Option.map_some, Option.some.injEq, Prod.mk.injEq] at h
      rw [← h.2, State.freeBuffer_events]

/-- A forwarded byte changes the table alone. -/
theorem State.forward_events (d : Index) (p pos : Nat) (v : Byte) (t : State) (h : s.forward d p pos = some (v, t)) :
    t.events = s.events := by
  simp only [State.forward] at h
  split at h
  · cases h; rfl
  · cases hc : s.cleanSource d p pos with
    | none => simp [hc] at h
    | some m =>
      simp only [hc, Option.map_some, Option.some.injEq, Prod.mk.injEq] at h
      rw [← h.2, State.touchClean_events]

/-- A byte from the read-ahead queue changes the Read Path alone. -/
theorem State.takeAhead_events (d : Index) (x : Nat) (v : Byte) (t : State) (h : s.takeAhead d x = some (v, t)) :
    t.events = s.events := by
  simp only [State.takeAhead] at h
  split at h
  · simp only [Option.some.injEq, Prod.mk.injEq] at h
    rw [← h.2, State.setAhead_events]
  · cases h

variable (e : EventUnit) (hg : e.Grows s.events)

include hg

omit hg in
@[simp] theorem State.closeRecordRead_events : s.closeRecordRead.events = s.events := by
  simp only [State.closeRecordRead]
  split <;> simp

omit hg in
@[simp] theorem State.fillMerged_events (n : Index) (h : PageHold) (forced : Bool) (span : Run) (bytes : List Byte) : (s.fillMerged n h forced span bytes).events = s.events := by
  simp [State.fillMerged]

omit hg in
@[simp] theorem State.fillChecked_events (n : Index) (h : PageHold) (forced : Bool) (bytes : List Byte) : (s.fillChecked n h forced bytes).events = s.events := by
  simp [State.fillChecked]

omit hg in
@[simp] theorem State.requestVerify_events (n : Index) : (s.requestVerify n).events = s.events := by
  simp only [State.requestVerify]
  (repeat' split) <;> simp

omit hg in
@[simp] theorem State.verifyNackedCycled_events (n d : Index) : (s.verifyNackedCycled n d).events = s.events := by
  simp only [State.verifyNackedCycled]
  split <;> simp

omit hg in
@[simp] theorem State.nextProbe_events (d : Index) (period : Nat) : (s.nextProbe d period).events = s.events := by
  simp [State.nextProbe]

omit hg in
@[simp] theorem State.ackIfAddressed_events (d : Option Index) (p : Progress) : (s.ackIfAddressed d p).events = s.events := by
  simp only [State.ackIfAddressed]
  (repeat' split) <;> simp

omit hg in
@[simp] theorem State.keepPartial_events (n : Index) (bytes : List Byte) : (s.keepPartial n bytes).events = s.events := by
  simp [State.keepPartial]

omit hg in
@[simp] theorem State.requeue_events (n : Index) (forced : Bool) : (s.requeue n forced).events = s.events := by
  simp [State.requeue]

omit hg in
@[simp] theorem State.beginReload_events : s.beginReload.events = s.events := by
  simp [State.beginReload]

omit hg in
@[simp] theorem State.attemptNacked_events (o : AttemptNack) : (s.attemptNacked o).events = s.events := by
  simp only [State.attemptNacked]
  split <;> simp

omit hg in
@[simp] theorem State.abandonReload_events : s.abandonReload.events = s.events := by
  simp only [State.abandonReload]
  split <;> simp

@[simp] theorem State.refuse_grows (fault : Option FaultInfo) : e.Grows (s.refuse fault).events := by
  simp only [State.refuse]
  (repeat' split) <;> simp [hg]

@[simp] theorem State.holdBuffer_grows (cause : HoldCause) (n : Index) : e.Grows (s.holdBuffer cause n).events := by
  simp only [State.holdBuffer]
  split <;> simp [hg]

@[simp] theorem State.refuseRead_grows (r : ReadRecord) (kind : FaultKind) (detail : Byte) (buffer : Option Index) :
    e.Grows (s.refuseRead r kind detail buffer).events := by
  simp [hg, State.refuseRead]

@[simp] theorem State.refuseSilentRead_grows (r : ReadRecord) : e.Grows (s.refuseSilentRead r).events := by
  simp [hg, State.refuseSilentRead]

@[simp] theorem State.refuseNoBufferRead_grows (r : ReadRecord) : e.Grows (s.refuseNoBufferRead r).events := by
  simp [hg, State.refuseNoBufferRead]

@[simp] theorem State.allocateVerify_grows (r : ReadRecord) : e.Grows (s.allocateVerify r).events := by
  simp only [State.allocateVerify]
  split
  · rename_i n t ht
    simp [s.obtain_events n t ht, hg]
  · split <;> simp [hg]

@[simp] theorem State.seekVerify_grows (r : ReadRecord) : e.Grows (s.seekVerify r).events := by
  simp only [State.seekVerify]
  (repeat' split) <;> simp [hg]

@[simp] theorem State.seekMemory_grows (r : ReadRecord) : e.Grows (s.seekMemory r).events := by
  simp only [State.seekMemory]
  (repeat' split) <;> simp [hg]

@[simp] theorem State.resolveFrom_grows (ps : List Nat) (r : ReadRecord) : e.Grows (s.resolveFrom ps r).events := by
  induction ps generalizing s r with
  | nil => simp [State.resolveFrom, hg]
  | cons p ps ih =>
    simp only [State.resolveFrom]
    split
    · rename_i v t ht
      exact ih _ (by rw [s.forward_events _ _ _ v t ht]; exact hg) _
    · split
      · rename_i v t ht
        split at ht
        · cases ht
        · exact ih _ (by rw [s.takeAhead_events _ _ v t ht]; exact hg) _
      · simp [hg]

@[simp] theorem State.resolve_grows (r : ReadRecord) : e.Grows (s.resolve r).events := by
  simp [State.resolve, hg]

@[simp] theorem State.afterClose_grows : e.Grows s.afterClose.events := by
  simp only [State.afterClose]
  (repeat' split) <;> simp [hg]

@[simp] theorem State.retryRead_grows (r : ReadRecord) (outcome : Byte) : e.Grows (s.retryRead r outcome).events := by
  simp only [State.retryRead]
  split <;> simp [hg]

theorem State.streamFails_grows (f : State → ReadRecord → State) (hf : ∀ s r, e.Grows s.events → e.Grows (f s r).events) : e.Grows (s.streamFails f).events := by
  have hs : e.Grows s.streamCloses.events := hg
  simp only [State.streamFails]
  split
  · exact hf _ _ hs
  · exact State.afterClose_grows _ _ hs

@[simp] theorem State.refuseSilentWrite_grows (t : Translation) : e.Grows (s.refuseSilentWrite t).events := by
  simp [hg, State.refuseSilentWrite]

@[simp] theorem State.refuseNoBufferWrite_grows (t : Translation) : e.Grows (s.refuseNoBufferWrite t).events := by
  simp [hg, State.refuseNoBufferWrite]

@[simp] theorem State.waitForBuffer_grows (t : Translation) : e.Grows (s.waitForBuffer t).events := by
  simp only [State.waitForBuffer]
  (repeat' split) <;> simp [hg]

@[simp] theorem State.writeNewBuffer_grows (t : Translation) : e.Grows (s.writeNewBuffer t).events := by
  simp only [State.writeNewBuffer]
  split
  · rename_i n t' ht
    simp [s.obtain_events n t' ht, hg]
  · simp [hg]

@[simp] theorem State.writeOverClean_grows (t : Translation) (c : Index) : e.Grows (s.writeOverClean t c).events := by
  simp only [State.writeOverClean]
  split <;> simp [hg]

@[simp] theorem State.writeAccess_grows (t : Translation) : e.Grows (s.writeAccess t).events := by
  simp only [State.writeAccess]
  (repeat' split) <;> simp [hg]

@[simp] theorem State.readAccess_grows (t : Translation) : e.Grows (s.readAccess t).events := by
  simp [hg, State.readAccess]

@[simp] theorem State.dispatch_grows : e.Grows s.dispatch.events := by
  simp only [State.dispatch]
  (repeat' split) <;> simp [hg]

@[simp] theorem State.dispatchByMode_grows : e.Grows s.dispatchByMode.events := by
  simp only [State.dispatchByMode]
  (repeat' split) <;> simp [hg]

@[simp] theorem State.leaveModeHold_grows : e.Grows s.leaveModeHold.events := by
  simp only [State.leaveModeHold]
  split <;> simp [hg]

@[simp] theorem State.testWaitingWrite_grows (t : Translation) : e.Grows (s.testWaitingWrite t).events := by
  simp only [State.testWaitingWrite]
  (repeat' split) <;> simp [hg]

@[simp] theorem State.testWaitingRead_grows (r : ReadRecord) : e.Grows (s.testWaitingRead r).events := by
  simp only [State.testWaitingRead]
  (repeat' split) <;> simp [hg]

@[simp] theorem State.testWaiting_grows : e.Grows s.testWaiting.events := by
  simp only [State.testWaiting]
  split <;> simp [hg]

@[simp] theorem State.finishWith_grows (steps : List SeqStep) (outLength received : Nat) (outcome : SeqOutcome) (ending : Nat) (index : Option Nat) :
    e.Grows (s.finishWith steps outLength received outcome ending index).events := by
  simp [hg, State.finishWith]

@[simp] theorem State.finishUnbegun_grows (outcome : SeqOutcome) : e.Grows (s.finishUnbegun outcome).events := by
  simp only [State.finishUnbegun]
  split <;> simp [hg]

@[simp] theorem State.cutSequence_grows (outcome : SeqOutcome) (p : Progress) :
    e.Grows (s.cutSequence outcome p).events := by
  simp only [State.cutSequence]
  (repeat' split) <;> simp [hg]

@[simp] theorem State.loseSequence_grows (p : Progress) : e.Grows (s.loseSequence p).events := by
  simp only [State.loseSequence]
  (repeat' split) <;> simp [hg]

@[simp] theorem State.abortSlot_grows : e.Grows s.abortSlot.events := by
  simp only [State.abortSlot]
  split <;> simp [hg]

theorem State.endVerify_grows (n : Index) (f : State → ReadRecord → State) (hf : ∀ s r, e.Grows s.events → e.Grows (f s r).events) : e.Grows (s.endVerify n f).events := by
  simp only [State.endVerify]
  split <;> simp [hg, hf]

@[simp] theorem State.abandonVerify_grows (n : Index) : e.Grows (s.abandonVerify n).events := by
  simp only [State.abandonVerify]
  split
  · exact State.endVerify_grows _ _ (by simp [hg]) _ _ fun s r hs => s.resolve_grows e hs r
  · exact hg

@[simp] theorem State.commitEnds_grows (n : Index) : e.Grows (s.commitEnds n).events := by
  simp only [State.commitEnds]
  split
  · exact hg
  · split
    · simp only [State.select_events, State.flushClean_events]
      exact foldl_grows _ (fun e s n hs => s.abandonVerify_grows e hs n) _ _ _ (by simp [hg])
    · simp [hg]

@[simp] theorem State.retryCommit_grows (n : Index) (outcome : Byte) : e.Grows (s.retryCommit n outcome).events := by
  simp only [State.retryCommit]
  (repeat' split) <;> simp (implicitDefEqProofs := false) (maxDischargeDepth := 9) [hg]

@[simp] theorem State.enterSilent_grows (d : Index) (own : Option Index) (cause : HoldCause) (kind : FaultKind) :
    e.Grows (s.enterSilent d own cause kind).events := by
  simp only [State.enterSilent, State.select_events]
  refine foldl_grows _ (fun e s n hs => ?_) _ _ _ (State.testWaiting_grows _ _ (foldl_grows _ (fun e s n hs => ?_) _ _ _ (by simp [hg])))
  · split
    · exact State.endVerify_grows _ _ (by simpa using hs) _ _ fun s r hs => s.refuseSilentRead_grows e hs r
    · exact hs
  · split <;> simp [hs]

@[simp] theorem State.nackImmediate_grows (d : Index) (own : Option Index) (reopened : Bool) :
    e.Grows (s.nackImmediate d own reopened).events := by
  simp only [State.nackImmediate]
  (repeat' split) <;> simp [hg]

@[simp] theorem State.commitNacked_grows (n d : Index) (reopened : Bool) :
    e.Grows (s.commitNacked n d reopened).events := by
  simp only [State.commitNacked]
  (repeat' split) <;> simp [hg]

@[simp] theorem State.runsGoOn_grows (n : Index) (forced : Bool) (runs : List Run) :
    e.Grows (s.runsGoOn n forced runs).events := by
  simp only [State.runsGoOn]
  split <;> simp [hg]

@[simp] theorem State.stuckOutcome_grows (j : Job) : e.Grows (s.stuckOutcome j).events := by
  unfold State.stuckOutcome
  split
  · simp [hg]
  · simp [hg]
  · exact s.endVerify_grows e hg _ _ fun s r hs => s.refuse_grows e hs none
  · exact s.streamFails_grows e hg _ fun s r hs => s.refuse_grows e hs none
  all_goals simp [hg]

@[simp] theorem State.stuckAnswer_grows (q : HostReadRequest) : e.Grows (s.stuckAnswer q).events := by
  unfold State.stuckAnswer
  split
  · (repeat' split) <;> simp [hg]
  · exact s.endVerify_grows e hg _ _ fun s r hs => s.refuse_grows e hs none
  · simp [hg]

@[simp] theorem State.enterStuck_grows (line : Line) : e.Grows (s.enterStuck line).events := by
  simp only [State.enterStuck]
  have base : ∀ t : State, e.Grows t.events → e.Grows (s.bus.hostReads.foldl State.stuckAnswer t).events :=
    fun t ht => foldl_grows _ (fun e s q hs => s.stuckAnswer_grows e hs q) _ _ _ ht
  (repeat' split) <;> simp (implicitDefEqProofs := false) (maxDischargeDepth := 9) [hg, base]

@[simp] theorem State.abandonIfHeld_grows : e.Grows s.abandonIfHeld.events := by
  simp only [State.abandonIfHeld]
  (repeat' split) <;> simp [hg]

@[simp] theorem State.enterSafe_grows : e.Grows s.enterSafe.events := by
  simp [hg, State.enterSafe]

@[simp] theorem State.endFlush_grows : e.Grows s.endFlush.events := by
  simp only [State.endFlush]
  (repeat' split) <;> simp [hg]

@[simp] theorem State.endFlushWatch_grows : e.Grows s.endFlushWatch.events := by
  simp only [State.endFlushWatch]
  split <;> simp [hg]

@[simp] theorem State.rejectLayout_grows (x : Rejection) : e.Grows (s.rejectLayout x).events := by
  simp [hg, State.rejectLayout]

@[simp] theorem State.settle_grows : e.Grows s.settle.events := by
  simp [hg, State.settle]

@[simp] theorem State.runCompleted_grows (n : Index) (h : PageHold) (forced : Bool) (rest : List Run) :
    e.Grows (s.runCompleted n h forced rest).events := by
  simp only [State.runCompleted]
  split <;> simp [hg]

@[simp] theorem State.runRefused_grows (n : Index) (h : PageHold) (index : Nat) :
    e.Grows (s.runRefused n h index).events := by
  simp only [State.runRefused]
  split <;> simp [hg]

@[simp] theorem State.fillMismatched_grows (n : Index) (h : PageHold) (bytes : List Byte) :
    e.Grows (s.fillMismatched n h bytes).events := by
  simp (implicitDefEqProofs := false) (maxDischargeDepth := 9) [hg, State.fillMismatched]

@[simp] theorem State.fillCompleted_grows (n : Index) (h : PageHold) (forced : Bool) (bytes : List Byte) :
    e.Grows (s.fillCompleted n h forced bytes).events := by
  simp only [State.fillCompleted]
  (repeat' split) <;> simp [hg]

@[simp] theorem State.openNacked_grows (d : Index) (r : ReadRecord) : e.Grows (s.openNacked d r).events := by
  simp only [State.openNacked]
  split <;> simp [hg]

@[simp] theorem State.byteForRead_grows (p : StreamPos) (r : ReadRecord) (v : Byte) :
    e.Grows (s.byteForRead p r v).events := by
  simp [hg, State.byteForRead]

@[simp] theorem State.byteAhead_grows (p : StreamPos) (v : Byte) : e.Grows (s.byteAhead p v).events := by
  simp only [State.byteAhead]
  (repeat' split) <;> simp [hg]

@[simp] theorem State.closingByte_grows (p : StreamPos) (v : Byte) : e.Grows (s.closingByte p v).events := by
  simp [hg, State.closingByte]

@[simp] theorem State.verifyMatched_grows (n : Index) (h : PageHold) : e.Grows (s.verifyMatched n h).events := by
  simp only [State.verifyMatched]
  split <;> simp [hg]

@[simp] theorem State.verifyMismatched_grows (n : Index) (h : PageHold) (start : Nat) (bytes : List Byte) :
    e.Grows (s.verifyMismatched n h start bytes).events := by
  simp only [State.verifyMismatched]
  split <;> simp [hg]

@[simp] theorem State.retryVerify_grows (n : Index) (outcome : Byte) : e.Grows (s.retryVerify n outcome).events := by
  simp only [State.retryVerify]
  split
  · exact hg
  · split
    · simp [hg]
    · exact s.endVerify_grows e hg _ _ fun s r hs => s.refuseRead_grows e hs r _ _ _

@[simp] theorem State.verifyNackedImmediate_grows (n d : Index) (reopened : Bool) :
    e.Grows (s.verifyNackedImmediate n d reopened).events := by
  simp only [State.verifyNackedImmediate]
  split <;> simp [hg]

@[simp] theorem State.resumeCommit_grows (d : Index) : e.Grows (s.resumeCommit d).events := by
  simp only [State.resumeCommit]
  (repeat' split) <;> simp [hg]

@[simp] theorem State.probeAcknowledged_grows (d : Index) : e.Grows (s.probeAcknowledged d).events := by
  simp only [State.probeAcknowledged]
  split <;> simp (implicitDefEqProofs := false) (maxDischargeDepth := 9) [hg]

@[simp] theorem State.probeNacked_grows (d : Index) : e.Grows (s.probeNacked d).events := by
  simp only [State.probeNacked]
  (repeat' split) <;> simp [hg]

@[simp] theorem State.cutOff_grows (j : Job) (c : CutOff) (p : Progress) : e.Grows (s.cutOff j c p).events := by
  unfold State.cutOff
  split
  · simp [hg]
  · simp [hg]
  · simp [hg]
  · exact State.streamFails_grows _ _ (by simp [hg]) _ fun s r hs => s.retryRead_grows e hs r _
  · split <;> simp [hg]
  · simp [hg]
  · split <;> simp [hg]

@[simp] theorem State.clearFails_grows (c : ClearCause) : e.Grows (s.clearFails c).events := by
  simp only [State.clearFails]
  split <;> simp (implicitDefEqProofs := false) (maxDischargeDepth := 9) [hg]

@[simp] theorem State.takeSubmission_grows (steps : List SeqStep) (args : List Byte) :
    e.Grows (s.takeSubmission steps args).events := by
  simp only [State.takeSubmission]
  split <;> simp (implicitDefEqProofs := false) (maxDischargeDepth := 9) [hg]

@[simp] theorem State.beginFlush_grows : e.Grows s.beginFlush.events := by
  simp only [State.beginFlush]
  (repeat' split) <;> simp (implicitDefEqProofs := false) (maxDischargeDepth := 9) [hg]

end Sys2Proof.Machine
end

