-- ==== Sys2Proof/Laws/Traffic.lean ====
section
/-! SUPPORT. What the traffic of a tick leaves alone: a byte on the bus changes the transaction in progress, an image or the
in area, and a consecutive-NACK count; an edge of SCK changes the service port alone, or takes a command. -/

namespace Sys2Proof.Machine

variable (s : State)

/-! ### One byte on the bus -/

@[simp] theorem Transaction.opened_job (t : Transaction) : t.opened.job = t.job := by
  simp only [Transaction.opened]
  split <;> rfl

@[simp] theorem Transaction.sending_job (t : Transaction) (rest : List Byte) : (t.sending rest).job = t.job := by
  simp only [Transaction.sending]
  (repeat' split) <;> rfl

@[simp] theorem Transaction.addressed_job (t : Transaction) : t.addressed.job = t.job := by
  simp only [Transaction.addressed]
  (repeat' split) <;> simp

@[simp] theorem Transaction.byteSent_job (t : Transaction) : t.byteSent.job = t.job := by
  simp only [Transaction.byteSent]
  (repeat' split) <;> simp

@[simp] theorem Transaction.byteReceived_job (t : Transaction) (v : Byte) : (t.byteReceived v).job = t.job := rfl

@[simp] theorem State.byteSent_outside : s.byteSent.outside = s.outside := by
  simp only [State.byteSent]
  (repeat' split) <;> simp

@[simp] theorem State.byteReceived_outside (v : Byte) : (s.byteReceived v).outside = s.outside := by
  simp only [State.byteReceived]
  (repeat' split) <;> simp

/-- A byte on the bus leaves what stands outside the blocks' work alone. -/
@[simp] theorem State.busByte_outside (b : BusByte) : (s.busByte b).outside = s.outside := by
  simp only [State.busByte]
  (repeat' split) <;> simp

/-- A byte on the bus leaves the access, the stream and its queue, the modes, the events, the commit queue and the request
list alone. -/
theorem State.busByte_frame (b : BusByte) :
    (s.busByte b).port = s.port ∧ (s.busByte b).reads = s.reads ∧ (s.busByte b).control = s.control
      ∧ (s.busByte b).events = s.events ∧ (s.busByte b).table.queue = s.table.queue
      ∧ (s.busByte b).table.flushWatch = s.table.flushWatch ∧ (s.busByte b).engine.requests = s.engine.requests := by
  simp only [State.busByte]
  split
  · split
    · simp
    · simp only [State.byteSent]
      (repeat' split) <;> simp [State.ackDevice]
      split <;> simp
    · simp only [State.byteReceived]
      (repeat' split) <;> simp
  · simp

/-- A byte on the bus changes no buffer but in its image. -/
theorem State.busByte_hold (b : BusByte) (n : Index) : ((s.busByte b).buffer n).hold = (s.buffer n).hold := by
  have image : ∀ (t : State) (m : Index) (im : Image), t.table = s.table →
      ((t.setImage m im).buffer n).hold = (s.buffer n).hold := by
    intro t m im ht
    by_cases h : n = m
    · subst h
      rw [t.buffer_setImage, t.buffer_congr s ht]
    · rw [t.buffer_setImage_ne _ _ _ h, t.buffer_congr s ht]
  have same : ∀ t : State, t.table = s.table → (t.buffer n).hold = (s.buffer n).hold := fun t ht => by
    rw [t.buffer_congr s ht]
  simp only [State.busByte]
  split
  · split
    · exact same _ (by simp)
    · simp only [State.byteSent]
      (repeat' split) <;> exact same _ (by simp)
    · simp only [State.byteReceived]
      (repeat' split) <;> first
        | exact same _ (by simp)
        | exact image _ _ _ (by simp)
  · rfl

/-- A byte on the bus changes of the bus record the transaction in progress and the half bit alone, and not what the
transaction is for. -/
theorem State.busByte_bus (b : BusByte) :
    (s.busByte b).bus
        = { s.bus with transaction := (s.busByte b).bus.transaction, wire := (s.busByte b).bus.wire } ∧ (s.busByte b).job = s.job := by
  have step : ∀ f : Transaction → Transaction, (∀ t, (f t).job = t.job) →
      (s.bus.transaction.map f).map (·.job) = s.bus.transaction.map (·.job) := by
    intro f hf
    cases s.bus.transaction <;> simp [hf]
  simp only [State.busByte]
  split
  · split
    · exact ⟨rfl, step _ Transaction.opened_job⟩
    · simp only [State.byteSent]
      (repeat' split) <;> first
        | exact ⟨rfl, rfl⟩
        | exact ⟨by simp [State.setTransaction, State.setBus], by
            simpa [State.job, State.setTransaction, State.setBus] using step _ Transaction.addressed_job⟩
        | exact ⟨by simp [State.setTransaction, State.setBus], by
            simpa [State.job, State.setTransaction, State.setBus] using step _ Transaction.byteSent_job⟩
    · simp only [State.byteReceived]
      (repeat' split) <;> first
        | exact ⟨rfl, rfl⟩
        | exact ⟨rfl, step _ fun t => Transaction.byteReceived_job t _⟩
  · exact ⟨rfl, rfl⟩

/-! ### The edges of SCK -/

/-- R146, R147: what a rising edge leads to: a frame of fewer than eight bits where the frame had fewer, or a command taken
by a frame in COMMAND or ARGUMENTS. -/
theorem Frame.sample_cases (f : Frame) (sdi : Bool) :
    (∃ g, f.sample sdi = .goesOn g ∧ (f.bitCount < 8 → g.bitCount < 8))
      ∨ ∃ code args, f.sample sdi = .takes code args
          ∧ ((∃ bits, f = .command bits) ∨ ∃ held expected bits, f = .arguments code held expected bits) := by
  have ofBytes : ∀ code held, (∃ g, Sampled.ofBytes code held = .goesOn g ∧ g.bitCount < 8)
      ∨ ∃ args, Sampled.ofBytes code held = .takes code args := by
    intro code held
    simp only [Sampled.ofBytes]
    split
    · exact .inl ⟨_, rfl, by simp [Frame.bitCount]⟩
    · exact .inr ⟨_, rfl⟩
  cases f with
  | idle => exact .inl ⟨_, rfl, id⟩
  | answering code args expected bits reply response shifted =>
    exact .inl ⟨_, rfl, fun _ => by simp only [Frame.bitCount]; omega⟩
  | command bits =>
    simp only [Frame.sample]
    split
    · exact .inl ⟨_, rfl, fun _ => by simp only [Frame.bitCount, List.length_append, List.length_singleton]; omega⟩
    · obtain ⟨g, h, hb⟩ | ⟨args, h⟩ := ofBytes (arrivedByte (bits ++ [sdi])) []
      · exact .inl ⟨g, h, fun _ => hb⟩
      · exact .inr ⟨_, args, h, .inl ⟨bits, rfl⟩⟩
  | arguments code held expected bits =>
    simp only [Frame.sample]
    split
    · exact .inl ⟨_, rfl, fun _ => by simp only [Frame.bitCount, List.length_append, List.length_singleton]; omega⟩
    · obtain ⟨g, h, hb⟩ | ⟨args, h⟩ := ofBytes code (held ++ [arrivedByte (bits ++ [sdi])])
      · exact .inl ⟨g, h, fun _ => hb⟩
      · exact .inr ⟨code, args, h, .inr ⟨held, expected, bits, rfl⟩⟩

/-- R146, R150: an edge of SCK changes the service port alone, or takes a command as the row of that command does. -/
theorem State.sckEdge_cases (e : SckEdge) :
    s.sckEdge e = { s with service := (s.sckEdge e).service }
      ∨ ∃ sdi code args, e = .rise sdi ∧ s.service.sck = false ∧ s.service.scs = false
          ∧ s.service.frame.sample sdi = .takes code args ∧ s.sckEdge e = (s.takeCommand code args).sckHigh.settle := by
  cases e with
  | fall => exact .inl rfl
  | rise sdi =>
    simp only [State.sckEdge]
    split
    · exact .inl rfl
    · split
      · exact .inl rfl
      · split
        · exact .inl rfl
        · exact .inr ⟨sdi, _, _, rfl, by simpa using ‹¬s.service.sck = true›, by simpa using ‹¬s.service.scs = true›,
            ‹_›, rfl⟩

/-- R150: a command taken leaves its frame in ANSWERING. -/
theorem State.takeCommand_service (code : Byte) (args : List Byte) :
    ∃ reply response, (s.takeCommand code args).service.frame = .answering code args args.length 0 reply response 0 :=
  ⟨_, _, rfl⟩

/-- R147: 04h alone is the code of SET EVENT MASK. -/
theorem ServiceCommand.ofCode_mask :
    ∀ code : Byte, ServiceCommand.ofCode code = some .setEventMask → code = 0x04#8 := by
  decide +kernel

/-- R150, R161: taking a command leaves what stands outside the blocks alone, but for the mask, which SET EVENT MASK sets. -/
theorem State.answerTo_outside (code : Byte) (args : List Byte) :
    ∃ m, (s.answerTo code args).state.outside = { s.outside with mask := m } ∧ (code ≠ 0x04#8 → m = s.events.mask) := by
  have same : ∀ t : State, t.outside = s.outside →
      ∃ m, t.outside = { s.outside with mask := m } ∧ (code ≠ 0x04#8 → m = s.events.mask) :=
    fun t h => ⟨s.events.mask, h, fun _ => rfl⟩
  simp only [State.answerTo]
  split
  · exact same _ rfl
  · rename_i c hc
    split
    · exact same _ rfl
    · cases c with
      | setEventMask => exact ⟨pairOf args, rfl, fun h => absurd (ServiceCommand.ofCode_mask code hc) h⟩
      | getStatus | getEvents | acknowledgeEvents | peekFault | getLayout => exact same _ rfl
      | flush => exact same _ ((State.endFlushWatch_outside _).trans ((State.table_outside _ _).trans s.sealAll_outside))
      | dropFault | abortSequence | reloadLayout | getSequenceResult | submitSequence | getBuffer
      | release | reissue | force =>
        refine same _ ?_
        simp only [ServiceCommand.act, State.dropFault, State.sequenceResult, State.abortSequence,
          State.reload, State.submit, onBuffer, State.getBuffer, State.release, State.reissue, State.force]
        (repeat' split) <;> first | rfl | simp [taken]

/-- R146: an edge keeps the bit count below 8. -/
theorem State.sckEdge_bitCount (e : SckEdge) (h : s.service.frame.bitCount < 8) :
    (s.sckEdge e).service.frame.bitCount < 8 := by
  cases e with
  | fall => exact h
  | rise sdi =>
    simp only [State.sckEdge]
    split
    · exact h
    · split
      · exact h
      · obtain ⟨g, hg, hb⟩ | ⟨code, args, hg, -⟩ := s.service.frame.sample_cases sdi
        · rw [hg]; exact hb h
        · have hs := (State.outside_fields _ _ (s.afterEdge (.takes code args)).settle_outside).2.2.2.2.2.2.1
          simp only [hg, hs]
          simp [State.afterEdge, State.takeCommand, Frame.bitCount]

/-- R147: once a command has been taken, no edge takes one: a frame carries one command. -/
theorem State.sckEdge_answering {code : Byte} {args : List Byte} {expected bits : Nat} {reply : Reply} {response : List Byte}
    {shifted : Nat} (e : SckEdge) (h : s.service.frame = .answering code args expected bits reply response shifted) :
    s.sckEdge e = { s with service := (s.sckEdge e).service }
      ∧ ∃ bits' shifted', (s.sckEdge e).service.frame = .answering code args expected bits' reply response shifted' := by
  cases e with
  | fall => exact ⟨rfl, _, _, h⟩
  | rise sdi =>
    simp only [State.sckEdge, h, Frame.sample]
    split
    · exact ⟨rfl, _, _, h⟩
    · split
      · exact ⟨rfl, _, _, by simpa using h⟩
      · exact ⟨rfl, _, _, rfl⟩

/-- R146: the byte that arrives as the bits of `v` is `v`. -/
theorem arrivedByte_sentBits : ∀ v : Byte, arrivedByte (sentBits v) = v := by
  decide +kernel

/-- R147: the codes that name a command are 01h to 10h. -/
theorem ServiceCommand.ofCode_isSome : ∀ code : Byte, (ServiceCommand.ofCode code).isSome = (1 ≤ code.toNat && code.toNat ≤ 16) := by
  decide +kernel

end Sys2Proof.Machine
end

