-- ==== Sys2Proof/Laws/Wire.lean ====
section
/-! SUPPORT. What the engine does bit by bit, said once for each operation: where a passage of time leads, what each half bit
ends in, and what the bridge drives. -/

namespace Sys2Proof.Machine

variable (s : State)

@[simp] theorem stateAfter_next (t : State) : stateAfter (.next t) s = t := rfl

@[simp] theorem stateAfter_done (t : State) : stateAfter (done t) s = t.settle := rfl

@[simp] theorem stateAfter_nothing (t : State) : stateAfter (nothing t) s = t := rfl

@[simp] theorem State.beginHalf_outside (h : HalfBit) : (s.beginHalf h).outside = s.outside := rfl

@[simp] theorem State.runTimer_outside (n : Nat) (w : Option Wire) : (s.runTimer n w).outside = s.outside := rfl

@[simp] theorem State.targetSda_outside (level : Bool) : (s.targetSda level).outside = s.outside := by
  simp only [State.targetSda]
  split <;> rfl

/-- R104: nothing but the level of SDA changes, and the idle-high start with SDA low. -/
theorem State.targetSda_cases (level : Bool) :
    s.drives .scl = false ∧ s.targetSda level = s
      ∨ s.drives .scl = true ∧ s.targetSda level = s.setBus fun b =>
          { b with sda := level, idleHigh := if level then b.idleHigh else none } := by
  cases h : s.drives .scl <;> simp [State.targetSda, h]

/-- R104: the lines are released with no half bit in progress, but for SCL in a park. -/
theorem State.drives_of_no_bit (h : s.bus.bit = none) (line : Line) : s.drives line = (s.parks && line == .scl) := by
  simp [State.drives, h]

/-- R104: the bridge drives SCL low in the low half bits alone, and not where it has released it. -/
theorem State.drives_scl (w : Wire) (h : s.bus.bit = some w) :
    s.drives .scl = (w.half.drivesScl && s.bus.lowStart.isNone) := by
  simp [State.drives, h]

/-- R104: SDA, as the half bit in progress has it. -/
theorem State.drives_sda (w : Wire) (h : s.bus.bit = some w) : s.drives .sda = s.halfDrivesSda w.half := by
  simp [State.drives, h]

/-- R104, R106: time that passes runs the bus timer, and can end the half bit in progress; it ends no other. -/
theorem State.pass_cases (n : Nat) :
    (∃ k ≤ n, s.pass n = s.runTimer k s.bus.bit)
      ∨ ∃ w, ∃ k ≤ n, s.bus.bit = some w ∧ s.bus.lowStart = none
          ∧ s.layout.params.rate.halfSteps ≤ (s.bus.timer - w.since).toNat + k
          ∧ s.pass n = (s.runTimer k none).halfEnds w.half (!s.drives .sda) (s.level .sda) := by
  unfold State.pass
  cases hb : s.bus.bit with
  | none => exact .inl ⟨_, Nat.min_le_left _ _, rfl⟩
  | some w =>
    simp only [Bool.or_eq_true, decide_eq_true_eq]
    split
    · exact .inl ⟨_, Nat.min_le_left _ _, rfl⟩
    · rename_i h
      have hl : s.bus.lowStart = none := by simpa using fun e => h (.inl e)
      exact .inr ⟨w, _, by omega, rfl, hl, by omega, rfl⟩

end Sys2Proof.Machine
end

