-- ==== Sys2Proof/WellFormed.lean ====
section
/-! DEFINITION. What a command's operands must be for the step it names to be possible at all, whatever the state:
the lengths and indices that the spec bounds. `exec` checks an operand against the state on its own. -/

namespace Sys2Proof

/-- R109: a cut-off transaction has sent at most the 32 bytes of a SEND step, and handed over at most the 64 bytes of
a page. -/
def Progress.wf (p : Progress) : Bool := p.sent ≤ 32 && p.received.length ≤ 64

/-- R110: a refused byte of a write run is one of at most two memory address bytes and 64 data bytes. -/
def RunOutcome.wf : RunOutcome → Bool
  | .dataNack i => i < 66
  | _ => true

/-- R59, R110: a fill receives at most 64 bytes, and a refused byte is a memory address byte. -/
def FillOutcome.wf : FillOutcome → Bool
  | .completed bs => bs.length ≤ 64
  | .addressNack _ => true
  | .dataNack i => i < 2

/-- R97, R110: a refused byte of a VERIFY read is a memory address byte. -/
def VerifyFailure.wf : VerifyFailure → Bool
  | .dataNack i => i < 2
  | .addressNack _ => true

/-- R132, R136: a byte index of a sequence is 0 to 31. -/
def SequenceClose.wf : SequenceClose → Bool
  | .dataNack i => i < 32
  | _ => true

/-- R167: a refused byte of the record read is a memory address byte. -/
def AttemptNack.wf : AttemptNack → Bool
  | .data i => i < 2
  | .address => true

/-- The operands of a command lie in the ranges the spec gives them: argument bytes are at most those the command
takes (R147, R148), an unknown code is outside 01h to 10h (R147), the record has 144 bytes (R175), and within 100 µs at
most 200 half bits, each with a level of SDA before it and a pass that does not end it (R104), and 1600 edges of SCK
(R146). -/
def Instr.wf : Instr → Bool
  | .writeRunEnd o => o.wf
  | .fillEnd o => o.wf
  | .timeBaseTick traffic edges => traffic.length ≤ 600 && edges.length ≤ 1600
  | .verifyReadEnd bs => bs.length ≤ 64
  | .verifyReadFailure o => o.wf
  | .arbitrationLoss p => p.wf
  | .stretchTimeout p => p.wf
  | .sequenceStepEnd bs => bs.length ≤ 32
  | .sequenceEnd o => o.wf
  | .unknownCommand c => c == 0#8 || 0x10#8 < c
  | .acknowledgeEvents a => a.length ≤ 16
  | .setEventMask a => a.length ≤ 2
  | .dropFault a => a.length ≤ 2
  | .getBuffer a => a.length ≤ 1
  | .release a => a.length ≤ 1
  | .reissue a => a.length ≤ 1
  | .force a => a.length ≤ 1
  | .submitSequence a => a.length ≤ 66
  | .startupRecordReadEnd bs => bs.length ≤ 144
  | .reloadRecordReadEnd bs => bs.length ≤ 144
  | .streamOpenDataNack i => i < 2
  | .recordReadAttemptNacked o => o.wf
  | _ => true

end Sys2Proof
end

