-- ==== Sys2Proof/Tests/Slice0.lean ====
section
/-! SUPPORT. Tests, each a named theorem on a small state: the worked examples and tables of spec/, an ill-formed term
for each well-formedness check, and for each statement of Certificates/Slice0 with hypotheses states and operands that
meet them, clause by clause. The layout is that of the worked example of the first chapter. -/

namespace Sys2Proof.Tests

open Sys2Proof Sys2Proof.Machine

set_option Elab.async false

/-! ### Words the tests use -/

/-- The layout of the worked example of spec/01. -/
def lay : Layout :=
  { devices := #v[
      some { target := 0x50#7, addressBytes := 1, blockBits := 3, capacityCode := 3, pageCode := 1, kind := .cycled, cycleLimit := 5 },
      some { target := 0x60#7, addressBytes := 2, blockBits := 1, capacityCode := 9, pageCode := 3, kind := .cycled, cycleLimit := 10 },
      some { target := 0x18#7, addressBytes := 2, blockBits := 0, capacityCode := 7, pageCode := 2, kind := .immediate, cycleLimit := 0 },
      none, none, none, none, none]
    windows := #v[
      some { hostBase := 0x000, sizeCode := 3, device := 0, deviceOffset := 0, readOnly := false, checked := false
             mergeFill := false, gatherTime := 20 },
      some { hostBase := 0x100, sizeCode := 8, device := 1, deviceOffset := 0, readOnly := false, checked := true
             mergeFill := false, gatherTime := 0 },
      some { hostBase := 0x200, sizeCode := 8, device := 1, deviceOffset := 0x100, readOnly := true, checked := false
             mergeFill := false, gatherTime := 0 },
      some { hostBase := 0x080, sizeCode := 7, device := 2, deviceOffset := 0, readOnly := false, checked := false
             mergeFill := true, gatherTime := 5 },
      none, none, none, none]
    params := .fallback }

/-- The bridge in RUNNING with that layout, every buffer FREE, the bus FREE and nothing waiting. -/
def live : State :=
  { State.reset with
    layout := lay
    bus := { State.reset.bus with status := .free, hostReads := [] }
    control := { State.reset.control with mode := .running, source := some .record, recordRead := none } }

/-- The state after a command. -/
def after (c : Instr) (s : State) : State :=
  match exec c s with
  | .next t => t
  | .fault _ | .refused _ => s

/-- A buffer with page `p` of device `d`, the positions of `w` written, in the phase `ph`. -/
def page (d : Index) (p : Nat) (w : Mask) (ph : Phase) : Buffer :=
  { image := Image.erased
    hold := some { device := d, page := p, generation := 0, written := w, source := w, lastWrite := 0#32, retries := 0, phase := ph } }

/-- The page fields of a buffer. -/
def fieldsOf (b : Buffer) : PageHold :=
  b.hold.getD { device := 0, page := 0, generation := 0, written := 0#64, source := 0#64, lastWrite := 0#32, retries := 0, phase := .verify 0 }

/-- The state with buffer `n` replaced, and nothing else. -/
def put (n : Index) (b : Buffer) (s : State) : State := s.setBuffer n b

/-- A transaction of `j` in the phase `ph`, with `toSend` left to send. -/
def transfer (j : Job) (ph : BusPhase) (toSend : List Byte) : Transaction :=
  { job := j, target := 0x50#7, read := false, phase := ph, byteIndex := 0, remaining := none, toSend := toSend
    received := [] }

/-- The state with the transaction `x` on the bus. -/
def withTransfer (x : Transaction) (s : State) : State :=
  { s with bus := { s.bus with status := .owned, transaction := some x } }

/-- The state with the transaction of `j` on the bus, in the phase `ph`. -/
def carrying (j : Job) (ph : BusPhase) (s : State) : State := withTransfer (transfer j ph []) s

/-- With no half bit begun, any bytes agree with the bits received. -/
theorem agrees_of_no_wire (s : State) (bytes : List Byte) (h : s.bus.wire = none) : s.agrees bytes = true := by
  unfold State.agrees
  split <;> simp_all

/-- The state with the half bit `h` in progress from now. -/
def inBit (h : HalfBit) (s : State) : State := { s with bus := { s.bus with wire := some { half := h, since := s.bus.timer } } }

/-- The state in the mode `m`. -/
def inMode (m : Mode) (s : State) : State := { s with control := { s.control with mode := m } }

/-- R146: the edges that clock in a byte. -/
def clocks (v : Byte) : List SckEdge := (bitsOf v).flatMap fun b => [.rise b, .fall]

/-- The levels of SDO at the next `n` rising edges, each after its falling edge. -/
def sdoBits : Nat → State → List (Option Bool)
  | 0, _ => []
  | n + 1, s =>
    let t := after (.timeBaseTick [] [.fall]) s
    t.sdo :: sdoBits n (after (.timeBaseTick [] [.rise false]) t)

/-- The time base at `ms` milliseconds and `k` steps, the bus timer at the beginning of that step. -/
def atTime (ms : Word) (k : Fin 10) (s : State) : State :=
  { s with
    events := { s.events with uptime := ms, fraction := k }
    bus := { s.bus with timer := BitVec.ofNat 32 (2000 * (10 * ms.toNat + k.val)) } }

/-- A frame has begun and its command byte has not arrived. -/
def inFrame (s : State) : State := { s with service := { frame := .command [], scs := false, sck := false } }

/-- Device `d` with the status `st` and a NACK count of `k`. -/
def withStatus (d : Index) (st : DeviceStatus) (k : Nat) (s : State) : State := s.setRecord d { status := st, nacks := k }

/-- A probe timer set at time 0 with the poll interval of the fallback parameters. -/
def timer (due : Bool) : ProbeTimer := { next := { since := { ms := 0#32, frac := 0 }, period := 5 }, due := due }

/-- CYCLING from time 0. -/
def cycling (due : Bool) : DeviceStatus := .cycling { ms := 0#32, frac := 0 } (timer due)

/-- A frame that has begun takes any command byte: what a witness that shows `.command []` gives a statement on `takesCode`. -/
theorem command_takes {s : State} (h : s.service.frame = .command []) (code : Byte) : s.takesCode code :=
  ⟨[], h, by decide, List.nil_prefix⟩

/-- An access latched on both lanes at the even host address `a`. -/
def request (write : Bool) (a : Nat) : HostRequest := latchedRequest write (BitVec.ofNat 19 (a / 2)) true true 0xBEEF#16

/-- HOST_ACCESS_TAKEN on both lanes at the even host address `a`. -/
def access (write : Bool) (a : Nat) : Instr := .hostAccessTaken write (BitVec.ofNat 19 (a / 2)) true true 0xBEEF#16

/-- The translation record of an access (R12) in the layout above. -/
def translationOf (r : HostRequest) : Translation :=
  match lay.classify r with
  | .mapped t => t
  | .unmapped | .readOnly _ | .checkBytes _ _ => lay.translate 0 { hostBase := 0, sizeCode := 0, device := 0, deviceOffset := 0, readOnly := false, checked := false, mergeFill := false, gatherTime := 0 } []

/-- A read of both lanes at the even host address `a` that waits with `wait`. -/
def reading (a : Nat) (wait : ReadWait) (verify : Option Index) (s : State) : State :=
  { s with port := .waiting (request false a) (.readPath
      { translation := translationOf (request false a), values := [], retries := 0, wait := wait, verifyBuffer := verify }) }

/-- The five steps of the worked example of spec/07. -/
def sensorSteps : List SeqStep := [.open 0x48#7 false, .send 1 true, .open 0x48#7 true, .receive 2 true, .close]

/-- The arguments of its submission (spec/12). -/
def sensorArgs : List Byte :=
  [0x05#8, 0x01#8, 0x00#8, 0x90#8, 0x41#8, 0x01#8, 0x00#8, 0x91#8, 0x81#8, 0x02#8, 0xC0#8, 0x00#8, 0x02#8]

/-- The sensor sequence RUNNING in step `k`. -/
def sensing (k : Nat) (abort : Bool) (s : State) : State :=
  { s with slot := { s.slot with state := .running sensorSteps 1 0 0 k (if k ≤ 2 then 0 else 1) abort } }

/-- Whether an outcome is a next state. -/
def isNext (o : Host.Outcome State Fault Refusal) : Bool :=
  match o with
  | .next _ => true
  | .fault _ | .refused _ => false

theorem next_of {o : Host.Outcome State Fault Refusal} (h : isNext o = true) : ∃ t, o = .next t := by
  cases o with
  | next t => exact ⟨t, rfl⟩
  | fault r => exact absurd h (by simp [isNext])
  | refused r => exact absurd h (by simp [isNext])

/-- A command answers a next state, and that is `after`. -/
theorem next_after {c : Instr} {s : State} (h : isNext (exec c s) = true) : exec c s = .next (after c s) := by
  unfold after
  cases g : exec c s with
  | next t => rfl
  | fault r => rw [g] at h; exact absurd h (by simp [isNext])
  | refused r => rw [g] at h; exact absurd h (by simp [isNext])

/-! ### Well-formedness: one ill-formed term for each check, and one well-formed beside it -/

theorem test_wf_lengths_at_the_limit :
    (Instr.writeRunEnd (.dataNack 65)).wf ∧ (Instr.fillEnd (.completed (List.replicate 64 0#8))).wf
      ∧ (Instr.startupRecordReadEnd (List.replicate 144 0#8)).wf ∧ (Instr.unknownCommand 0x11#8).wf
      ∧ (Instr.submitSequence sensorArgs).wf ∧ (Instr.verifyReadEnd (List.replicate 16 0#8)).wf := by decide +kernel
theorem test_wf_refuses_run_index : (Instr.writeRunEnd (.dataNack 66)).wf = false := by decide
theorem test_wf_refuses_traffic :
    (Instr.timeBaseTick (List.replicate 601 (.byte .opened)) []).wf = false ∧ (Instr.timeBaseTick [] (List.replicate 1601 .fall)).wf = false := by
  decide +kernel
theorem test_wf_refuses_long_fill : (Instr.fillEnd (.completed (List.replicate 65 0#8))).wf = false := by decide +kernel
theorem test_wf_refuses_fill_index : (Instr.fillEnd (.dataNack 2)).wf = false := by decide
theorem test_wf_refuses_verify_length : (Instr.verifyReadEnd (List.replicate 65 0#8)).wf = false := by decide +kernel
theorem test_wf_refuses_verify_index : (Instr.verifyReadFailure (.dataNack 2)).wf = false := by decide
theorem test_wf_refuses_sent_loss : (Instr.arbitrationLoss { addressed := true, sent := 33, received := [] }).wf = false := by decide
theorem test_wf_refuses_received_timeout :
    (Instr.stretchTimeout { addressed := true, sent := 0, received := List.replicate 65 0#8 }).wf = false := by decide +kernel
theorem test_wf_refuses_step_bytes : (Instr.sequenceStepEnd (List.replicate 33 0#8)).wf = false := by decide +kernel
theorem test_wf_refuses_sequence_index : (Instr.sequenceEnd (.dataNack 32)).wf = false := by decide
theorem test_wf_refuses_known_code : (Instr.unknownCommand 0x10#8).wf = false := by decide
theorem test_wf_refuses_figures : (Instr.acknowledgeEvents (List.replicate 17 0#8)).wf = false := by decide
theorem test_wf_refuses_mask_bytes : (Instr.setEventMask [0#8, 0#8, 0#8]).wf = false := by decide
theorem test_wf_refuses_drop_bytes : (Instr.dropFault [0#8, 0#8, 0#8]).wf = false := by decide
theorem test_wf_refuses_buffer_bytes : (Instr.getBuffer [0#8, 0#8]).wf = false := by decide
theorem test_wf_refuses_release_bytes : (Instr.release [0#8, 0#8]).wf = false := by decide
theorem test_wf_refuses_reissue_bytes : (Instr.reissue [0#8, 0#8]).wf = false := by decide
theorem test_wf_refuses_force_bytes : (Instr.force [0#8, 0#8]).wf = false := by decide
theorem test_wf_refuses_submission : (Instr.submitSequence (List.replicate 67 0#8)).wf = false := by decide +kernel
theorem test_wf_refuses_startup_record : (Instr.startupRecordReadEnd (List.replicate 145 0#8)).wf = false := by decide +kernel
theorem test_wf_refuses_reload_record : (Instr.reloadRecordReadEnd (List.replicate 145 0#8)).wf = false := by decide +kernel
theorem test_wf_refuses_open_index : (Instr.streamOpenDataNack 2).wf = false := by decide
theorem test_wf_refuses_attempt_index : (Instr.recordReadAttemptNacked (.data 2)).wf = false := by decide

/-- No row of the table gives bits. -/
theorem test_no_word_spells_a_command : decodeTableWord 8 0x01 = none ∧ State.reset.withFetchWord 8 0x01 = State.reset := by
  decide +kernel

/-! ### The worked examples of spec/ -/

/-- spec/01: 00345h is mapped to device 0, offset 345h, page 34h, position 5, behind 53h with the address byte 45h. -/
theorem test_example_translates_00345h :
    let t := translationOf (latchedRequest true 0x1A2#19 false true 0#16)
    t.window = 0 ∧ t.device = 0 ∧ t.page = 0x34 ∧ t.pageStart = 0x340
      ∧ t.positions = [5] ∧ t.target = 0x53#7 ∧ t.addressBytes = [0x45#8] := by decide +kernel

/-- spec/01: a read of 2FFFEh reaches page 7FFh of device 1 through 61h, FFh FEh. -/
theorem test_example_translates_2FFFEh :
    let t := translationOf (request false 0x2FFFE)
    t.window = 2 ∧ t.device = (1 : Index) ∧ t.page = 0x7FF ∧ t.pageStart = 0x1FFC0
      ∧ t.positions = [62, 63] ∧ t.target = 0x61#7 ∧ t.addressBytes = [0xFF#8, 0xFE#8] ∧ t.lastOffset = 0x1FFFF := by decide +kernel

/-- spec/01: 0A001h is in window 3, merge-fill with gather time 5 ms, page 100h position 1, behind 18h, 20h 01h. -/
theorem test_example_translates_0A001h :
    let t := translationOf (latchedRequest true 0x5000#19 false true 0#16)
    t.window = 3 ∧ t.page = 0x100 ∧ t.positions = [1] ∧ t.target = 0x18#7
      ∧ t.addressBytes = [0x20#8, 0x01#8] ∧ t.mergeFill = true ∧ t.gatherTime = 5 := by decide +kernel

/-- spec/01: the refused accesses of the table; a two-byte write at 1003Eh is refused at its first check byte. -/
theorem test_example_refusals :
    lay.classify (latchedRequest true 0x801F#19 false true 0#16) = .checkBytes 1 63
      ∧ lay.classify (request true 0x1003E) = .checkBytes 1 62
      ∧ lay.classify (latchedRequest true 0x10008#19 true false 0#16) = .readOnly 2
      ∧ lay.classify (latchedRequest false 0x20000#19 true false 0#16) = .unmapped := by decide +kernel

/-- The record of the layout of spec/01 with the fallback parameters, window 2's size code and offset as given. -/
def record (size offset pad : Byte) : List Byte :=
  let body := [0x44#8, 0x56#8, 0x01#8, 0x03#8, 0x04#8, 0x00#8, 0x05#8, 0x0A#8, 0x64#8, 0x03#8, 0x04#8, 0x01#8, 0xFF#8, 0xFF#8, pad, 0#8]
    ++ [0x50#8, 1#8, 3#8, 3#8, 1#8, 0#8, 5#8, 0#8] ++ [0x60#8, 2#8, 1#8, 9#8, 3#8, 0#8, 10#8, 0#8]
    ++ [0x18#8, 2#8, 0#8, 7#8, 2#8, 1#8, 0#8, 0#8] ++ List.replicate 40 0#8
    ++ [0x00#8, 0x00#8, 3#8, 0#8, 0x00#8, 0x00#8, 0#8, 20#8] ++ [0x01#8, 0x00#8, 8#8, 1#8, 0x00#8, 0x00#8, 2#8, 0#8]
    ++ [0x02#8, 0x00#8, size, 1#8, offset, 0x00#8, 1#8, 0#8] ++ [0x00#8, 0x80#8, 7#8, 2#8, 0x00#8, 0x00#8, 4#8, 5#8]
    ++ List.replicate 30 0#8
  body ++ [highByte (checkWord body), lowByte (checkWord body)]

set_option maxRecDepth 100000 in
/-- spec/01: that record passes validation and gives the layout. -/
theorem test_example_record_is_accepted : validate (record 8 1 0) = none ∧ readLayout (record 8 1 0) = lay := by decide +kernel

set_option maxRecDepth 100000 in
/-- spec/01: the two variants, and the padding byte that comes before them; spec/12: OVERLAP of 1 and 2 is 92h. -/
theorem test_example_record_variants :
    validate (record 9 1 0) = some (.badWindow 2) ∧ validate (record 8 0 0) = some (.overlap 1 2)
      ∧ validate (record 8 0 1) = some .badPadding ∧ (Rejection.overlap 1 2).detail = 0x92#8
      ∧ (Rejection.badCount 10).detail = 0x3A#8 := by decide +kernel

/-- spec/02: a write to both lanes at 00340h at 1000 opens buffer 0, positions 0 and 1, deadline 1020. -/
theorem test_example_first_write :
    ((after (access true 0x340) (atTime 1000#32 0 live)).buffer 0).hold =
      some { device := 0, page := 0x34, generation := 0, written := 3#64, source := 3#64, lastWrite := 1000#32, retries := 0
             phase := .gather 1020#32 } := by decide +kernel

/-- spec/02: at 1031 buffer 0 is taken with the runs 0 to 2 and 14 to 15. -/
theorem test_example_expiry :
    ((after (.gatherDeadlineExpiry 0) (atTime 1031#32 0 (put 0 { page 0 0x34 0xC007#64 (.gather 1031#32) with
        hold := some { fieldsOf (page 0 0x34 0xC007#64 (.gather 1031#32)) with lastWrite := 1011#32 } } live))).buffer 0).hold.map (·.phase)
      = some (.commit false [{ first := 0, count := 3 }, { first := 14, count := 2 }]) := by decide +kernel

/-- spec/02: at 1033, with buffer 0 in CYCLE, a write opens buffer 1 with generation 1 and deadline 1053. -/
theorem test_example_second_generation :
    ((after (.hostAccessTaken true 0x1A2#19 false true 0x7700#16)
        (withStatus 0 (cycling false) 0 (atTime 1033#32 0 (put 0 (page 0 0x34 0xC007#64 (.cycle false [{ first := 14, count := 2 }])) live)))).buffer 1).hold
      = some { device := 0, page := 0x34, generation := 1, written := 0x20#64, source := 0x20#64, lastWrite := 1033#32
               retries := 0, phase := .gather 1053#32 } := by decide +kernel

/-- spec/06: grant 5 of the worked example goes to the promoted commit, ahead of a host read, and resets both counts. -/
theorem test_example_promotion :
    let s := put 0 (page 0 0x20 1#64 (.commit false [{ first := 0, count := 1 }])) live
    let t := after .busGrant { s with
      engine := { s.engine with requests := [0] }
      slot := { s.slot with state := .waiting sensorSteps 1 0 0 }
      bus := { s.bus with hostReads := [.streamOpen 0 0], passCommit := 4, passDirect := 2 } }
    t.job = some (.run 0) ∧ t.bus.passCommit = 0 ∧ t.bus.passDirect = 0 ∧ t.bus.lastGranted = .commit := by decide +kernel

/-- spec/07, spec/12: the submission passes; with 53h at step 3 it is answered TARGET_CONFLICT. -/
theorem test_example_submission :
    (after (.submitSequence sensorArgs) (inFrame live)).slot.state = .waiting sensorSteps 1 0 0
      ∧ (after (.submitSequence (sensorArgs.set 7 0xA7#8)) (inFrame live)).service.frame
          = .answering 0x0C#8 (sensorArgs.set 7 0xA7#8) 13 0 .targetConflict [] 0 := by decide +kernel

/-- spec/07, spec/12: the result of the sensor read is 00h 05h FFh 02h 19h 80h. -/
theorem test_example_sequence_result :
    let s := carrying .sequence .receive (sensing 4 false live)
    let t := after (.sequenceEnd .closed) (after (.sequenceStepEnd [0x19#8, 0x80#8]) s)
    (after .getSequenceResult (inFrame t)).service.frame
      = .answering 0x0D#8 [] 0 0 .ok [0x00#8, 0x05#8, 0xFF#8, 0x02#8, 0x19#8, 0x80#8] 0 := by decide +kernel

/-- spec/10: a figure of 2 against 3 leaves 1, and a figure of 255 against 255 leaves 0. -/
theorem test_example_acknowledge :
    let e := { live.events with counts := (live.events.counts.set 2 3).set 6 255 }
    let t := e.acknowledge ((List.replicate 16 0#8).set 2 2#8 |>.set 6 255#8)
    t.count 2 = 1 ∧ t.count 6 = 0 := by decide +kernel

/-- spec/11: PFW# falls: the CLEAN buffer is freed, the one in GATHER committed, the read refused, the abort pending. -/
theorem test_example_power_fail :
    let s := put 2 (page 0 0x20 0xFF#64 (.cycle false [{ first := 8, count := 4 }])) (put 4 (page 2 0x100 2#64 (.gather 9000#32))
      (put 6 (page 1 0 0#64 (.clean 0#32)) (withStatus 0 (cycling false) 0 (sensing 2 false
        (carrying .sequence .send (reading 0x204 .device none live))))))
    let t := after .powerFailFlush s
    t.control.mode = .flushing ∧ t.bufferState 4 = .commit ∧ t.bufferState 6 = .free ∧ t.bufferState 2 = .cycle
      ∧ t.slot = (sensing 2 true s).slot ∧ t.herr ∧ t.events.count 1 = 1 ∧ t.events.log = [] := by decide +kernel

/-- R90: the check word of the ASCII bytes of 123456789 is 29B1h; of no byte, FFFFh. -/
theorem test_check_word : checkWord ((List.range 9).map fun i => BitVec.ofNat 8 (0x31 + i)) = 0x29B1#16 := by decide +kernel

/-- spec/03: the eleventh probe, NACKed 5.5 ms after the cycle start, makes device 0 SILENT and its buffer HELD; the one
5.0 ms after it does not. -/
theorem test_example_cycle_timeout :
    let s := fun k => withStatus 0 (cycling false) 10 (atTime 5#32 k (carrying (.probe 0) .address
      (put 2 (page 0 0x20 0xF0F#64 (.cycle false [{ first := 8, count := 4 }])) live)))
    let t := after (.probeEnd false) (s 5)
    (after (.probeEnd false) (s 0)).bufferState 2 = .cycle ∧ (fieldsOf (t.buffer 2)).phase = .held .cycleTimeout
      ∧ t.events.count 3 = 1 ∧ t.events.count 2 = 1
      ∧ t.events.log.map (·.info) = [{ kind := .cycleTimeout, detail := 11#8, device := some 0, window := some 0
                                       buffer := some 2, place := some 0x200 }] := by decide +kernel

/-- spec/04: byte 1FFh is the last of its block: it joins the queue and the stream closes. -/
theorem test_example_block_end :
    let t := after (.streamByteReceived 0x3C#8) { carrying .stream .receive live with
      reads := { stream := .running { device := 0, next := 0x1FF, last := 0x1FF }, ahead := { device := 0, first := 0x1FD, bytes := [1#8, 2#8] },
                 dropsAhead := false } }
    t.reads = { stream := .closed, ahead := { device := 0, first := 0x1FD, bytes := [1#8, 2#8, 0x3C#8] }, dropsAhead := false }
      ∧ t.bus.transaction = none := by
  decide +kernel

/-- spec/04: a read of 00201h is served from the queue, and the parked stream reads ahead again. -/
theorem test_example_read_ahead_serves :
    let t := after (.hostAccessTaken false 0x100#19 false true 0#16) { carrying .stream .park live with
      reads := { stream := .parked { device := 0, next := 0x205, last := 0x2FF } { since := { ms := 0#32, frac := 0 }, period := 10 }
                 ahead := { device := 0, first := 0x201, bytes := [1#8, 2#8, 3#8, 4#8] }, dropsAhead := false } }
    t.hdOut = some 0x0100#16 ∧ t.reads.stream = .running { device := 0, next := 0x205, last := 0x2FF }
      ∧ t.reads.ahead = { device := 0, first := 0x202, bytes := [2#8, 3#8, 4#8] } := by decide +kernel

/-- spec/05: the write at 10010h, its gather time 0 and its page incomplete, is taken into FILL. -/
theorem test_example_checked_write : (after (access true 0x10010) live).bufferState 0 = .fill := by decide +kernel

/-- spec/05: a fill that does not match holds buffer 0, place 0000h, detail 00h. -/
theorem test_example_mismatch :
    let t := after (.fillEnd (.completed (List.replicate 64 0#8)))
      (carrying (.fill 0) .receive (put 0 (page 1 0 0x30000#64 (.fill false)) live))
    (fieldsOf (t.buffer 0)).phase = .held .checkMismatch ∧ t.events.count 5 = 1 ∧ t.events.count 2 = 1
      ∧ t.events.log.map (·.info) = [{ kind := .checkMismatchFill, detail := 0#8, device := some 1, window := some 1
                                       buffer := some 0, place := some 0 }] := by decide +kernel

/-- spec/05: FORCE takes the HELD buffer into FILL, forced; the newer generation of its page waits in the queue. -/
theorem test_example_force :
    let newer := { page 1 0 0x300000000#64 (.sealed false) with
      hold := some { fieldsOf (page 1 0 0x300000000#64 (.sealed false)) with generation := 1 } }
    let t := after (.force [0#8]) (inFrame { put 0 (page 1 0 0x30000#64 (.held .checkMismatch)) (put 1 newer live) with
      table := { (put 0 (page 1 0 0x30000#64 (.held .checkMismatch)) (put 1 newer live)).table with queue := [1] } })
    (fieldsOf (t.buffer 0)).phase = .fill true ∧ t.table.queue = [1] ∧ t.engine.requests = [0] := by decide +kernel

/-- spec/09: a REISSUE cut short leaves the buffer HELD. -/
theorem test_example_cut_frame :
    let s := inFrame (put 3 (page 1 0x12 0xFF#64 (.held .dataRefused)) live)
    (after .frameEnd (after (.reissue []) s)).bufferState 3 = .held
      ∧ (after .frameEnd (after (.reissue []) s)).service = { frame := .idle, scs := true, sck := true } := by decide +kernel

/-! ### Other commands -/

/-- R157: the uptime wraps after 2^32 − 1. -/
theorem test_tick_wraps : (after (.timeBaseTick [] []) (atTime 0xFFFFFFFF#32 9 live)).now = { ms := 0#32, frac := 0 } := by decide +kernel
/-- R145: a withdrawn read leaves no stream open request. -/
theorem test_withdrawal :
    let t := after .withdrawal (after (access false 0x340) live)
    t.port = .idle ∧ t.bus.hostReads = [] := by decide +kernel
/-- R25: the waiting write is accepted into the buffer that has become FREE. -/
theorem test_waiting_write :
    let s := { live with port := .waiting (request true 0x340) (.buffers (translationOf (request true 0x340))) }
    (after .waitingWriteRetry s).bufferState 0 = .gather ∧ (after .waitingWriteRetry s).hrdy := by decide +kernel
/-- R51: the due probe with the earliest time is granted, the lowest-numbered device on equal times. -/
theorem test_probe_grant :
    (after .busGrant (withStatus 2 (cycling true) 0 (withStatus 1 (cycling true) 0 live))).job = some (.probe 1) := by decide +kernel
/-- R107, R104: after a foreign close at 100 kHz the bus is free 4.7 µs later. -/
theorem test_foreign_close :
    (after .foreignClose { live with bus := { live.bus with status := .foreign, sda := false } }).bus.freeAt = some 94#32 := by
  decide +kernel
/-- R119: a loss releases both lines and leaves SDA low to the other party. -/
theorem test_arbitration_loss :
    let t := after (.arbitrationLoss { addressed := false, sent := 0, received := [] }) (carrying (.probe 0) .address
      (withStatus 0 (cycling false) 0 live))
    t.bus.status = .foreign ∧ t.bus.sda = false ∧ t.events.count 6 = 1 := by decide +kernel
/-- R123: a check of a STUCK bus with both lines high begins the recovery watch; 100 µs later its end frees the bus, and
no earlier. -/
theorem test_recovery :
    let t := after .stuckCheck (atTime 50#32 0 { live with bus := { live.bus with
      status := .stuck, nextCheck := some { since := { ms := 0#32, frac := 0 }, period := 500 } } })
    let u := after .recoveryWatchEnd (after (.timeBaseTick [] []) t)
    t.bus.watch.isSome ∧ (after .recoveryWatchEnd t).bus.status = .stuck ∧ u.bus.status = .free ∧ u.events.count 9 = 1 := by
  decide +kernel
/-- R119: with a byte of 00h alone left to send a write run tests no bit, and meets no loss. -/
theorem test_no_loss_on_zeros :
    let s := withTransfer (transfer (.run 0) .send [0#8]) (put 0 (page 0 0x20 1#64 (.commit false [⟨0, 1⟩])) live)
    (after (.arbitrationLoss { addressed := true, sent := 0, received := [] }) s).bus.status = .owned := by decide +kernel
/-- R104, R112: the bridge drives SDA low at the open, and between bytes when the next begins with a 0; SCL between bytes. -/
theorem test_lines :
    let s := fun ph bytes => withTransfer (transfer (.run 0) ph bytes) live
    (s .open []).level .sda = false ∧ (s .open []).level .scl = true ∧ (s .send [0x7F#8]).level .sda = false
      ∧ (s .send [0x80#8]).level .sda = true ∧ (s .send [0x80#8]).level .scl = false ∧ live.level .scl = true := by
  decide +kernel
/-- R121: with SDA held low a bus clear is granted at 1 ms, to the step, and not before. -/
theorem test_bus_clear_time :
    let s := { live with bus := { live.bus with
      status := .foreign, sda := false, idleHigh := none, heldData := some 0#32, hostReads := [.streamOpen 0 0] } }
    (after .busClearGrant (atTime 0#32 9 s)).bus.status = .foreign
      ∧ (after .busClearGrant (atTime 1#32 0 s)).bus.status = .clearing := by decide +kernel
/-- R59, R63: the bytes a granted run and a granted merge-fill send after the address byte. -/
theorem test_granted_bytes :
    let sent := fun s : State => ((after .busGrant { s with engine := { s.engine with requests := [0] } }).bus.transaction.map
      (·.toSend))
    sent (put 0 (page 0 0x34 0x6#64 (.commit false [⟨1, 2⟩])) live) = some [0x41#8, 0xFF#8, 0xFF#8]
      ∧ sent (put 0 (page 2 0x100 0x12#64 (.fill false)) live) = some [0x20#8, 0x01#8] := by decide +kernel
/-- R147, R151: 11h is answered UNKNOWN, 05h. -/
theorem test_unknown_command :
    (sdoBits 16 (after (.unknownCommand 0x11#8) (inFrame live))).map (Option.getD · true) = bitsOf 0x05#8 ++ bitsOf 0x00#8 := by
  decide +kernel
/-- R168: with an unreadable record the fallback layout is installed and the mode is RUNNING. -/
theorem test_fallback :
    let t := after (.startupRecordReadEnd []) { State.reset with control := { State.reset.control with
      recordRead := some { retries := 0, firstNack := none, nextAttempt := none, failed := true } } }
    t.control.mode = .running ∧ t.control.source = some .fallback ∧ t.layout = fallbackLayout 0x50#7 1
      ∧ t.events.count 14 = 1 := by decide +kernel
/-- R174: PFW# rising leaves SAFE. -/
theorem test_safe_exit :
    (after .safeExit { live with control := { live.control with mode := .safe, pfw := false } }).control.mode = .running := by
  decide +kernel

/-! ### The lines, half bit by half bit -/

/-- The levels of SCL and SDA in the next half bits, half a bit time of 100 kHz each. -/
def shape : Nat → State → List (Bool × Bool)
  | 0, _ => []
  | n + 1, s => (s.level .scl, s.level .sda) :: shape n (s.pass 100)

/-- The state after `n` half bits of 100 kHz. -/
def halves (n : Nat) (s : State) : State := n.fold (fun _ _ s => s.pass 100) s

/-- A run of one byte of page 20h of device 0 on the bus, in the phase `ph`, with `left` to send, SDA held low by another party
or not. -/
def runOnBus (ph : BusPhase) (left : List Byte) (sda : Bool) : State :=
  let s := withTransfer (transfer (.run 2) ph left) (put 2 (page 0 0x20 1#64 (.commit false [⟨0, 1⟩])) live)
  { s with bus := { s.bus with sda := sda } }

/-- R104: the open, its address byte 50h in write direction most significant bit first, and the ninth clock, SDA released; the
same at 400 kHz lasts a quarter of the time. -/
theorem test_open_and_address_byte :
    let s := runOnBus .open [0x80#8] true
    shape 19 s = (true, false) :: ((bitsOf 0xA0#8 ++ [true]).flatMap fun b => [(false, b), (true, b)])
      ∧ (((runOnBus .open [] true).pass 99).phase = some .open ∧ ((runOnBus .open [] true).pass 100).phase = some .address)
      ∧ ({ s with layout := { s.layout with params := { s.layout.params with rate := .kHz400 } } }.pass 25).phase = some .address := by
  decide +kernel

/-- R104: the re-open of a random read that has sent its address bytes, and the close of a run, with its report. -/
theorem test_reopen_and_close :
    let s := runOnBus .close [] true
    shape 4 (runOnBus .reopen [] true) = [(false, true), (true, true), (true, false), (false, true)]
      ∧ shape 3 s = [(false, false), (true, false), (true, true)] ∧ (halves 1 s).job = some (.run 2) ∧ (halves 2 s).job = none
      ∧ (halves 2 s).bus.freeAt = some 294#32 ∧ ((halves 2 s).pass 94).bus.timer = 294#32 := by decide +kernel

/-- R110: with SDA left high in the ninth clock the byte of index 0 is refused, the close follows, and its end reports DATA_NACK,
which holds the buffer; a target that takes SDA low while SCL is low acknowledges it. -/
theorem test_ninth_clock :
    let byte := halves 16 (runOnBus .send [0x81#8, 0x7E#8] true)
    let refused := halves 2 byte
    (refused.phase = some .close ∧ refused.bus.refused = some (.byte 0) ∧ shape 2 refused = [(false, false), (true, false)]
        ∧ refused.bufferState 2 = .commit)
      ∧ (after (.timeBaseTick (.pass 199 :: []) []) refused).bufferState 2 = .commit
      ∧ ((after (.timeBaseTick (.pass 199 :: []) []) refused).pass 1).bufferState 2 = .held
      ∧ (byte.level .scl = false ∧ byte.level .sda = true)
      ∧ (halves 2 (byte.busEvent (.sda false))).unsent = 1 ∧ (halves 2 (byte.busEvent (.sda false))).bus.refused = none := by
  decide +kernel

/-- R119: SDA low in a clock whose bit is 1 loses the arbitration at that bit, and in one whose bit is 0 it does not. -/
theorem test_bit_by_bit_loss :
    let s := runOnBus .send [0x40#8] false
    (halves 2 s).bus.status = .owned ∧ (halves 3 s).bus.status = .owned ∧ (halves 4 s).bus.status = .foreign
      ∧ (halves 4 s).events.count 6 = 1 ∧ (halves 4 s).drives .sda = false := by decide +kernel

/-- R111: eight bits sampled of SDA, moved by the target while SCL is low, are a byte, most significant first; the bridge
acknowledges it in the ninth clock. -/
theorem test_byte_comes_in :
    let s := withTransfer { transfer (.fill 3) .receive [] with remaining := some 2 } (put 3 (page 2 0x100 0x3#64 (.fill false)) live)
    let bits := (bitsOf 0xA6#8).foldl (fun s b => halves 2 (s.busEvent (.sda b))) s
    bits.drives .sda = true ∧ bits.handed = [] ∧ (halves 1 bits).level .sda = false ∧ (halves 2 bits).handed = [0xA6#8]
      ∧ (halves 2 bits).bus.transaction.map (·.remaining) = some (some 1) := by decide +kernel

/-- R106, R120: a half bit whose SCL another party holds low waits, and is timed from the rise. -/
theorem test_stretched_half :
    let s := halves 1 (runOnBus .send [0x81#8] true)
    let held := (after (.foreignOpen .scl) (s.pass 40)).pass 300
    let risen := after (.foreignLowPeriodEnd true) held
    (held.bus.timer = 440#32 ∧ held.level .scl = false)
      ∧ ((risen.pass 99).bus.wire, (risen.pass 100).bus.wire)
        = (some ⟨.clockHigh [], 440#32⟩, some ⟨.clockLow [true], 540#32⟩) := by decide +kernel

/-- R106, R120: SCL found low where the bridge would release it lengthens the high half. -/
theorem test_stretch_at_the_release :
    let s := after (.foreignOpen .scl) ((runOnBus .send [0x81#8] true).pass 60)
    s.bus.wire = some ⟨.clockHigh [], 60#32⟩ ∧ s.drives .scl = false ∧ s.level .scl = false := by decide +kernel

/-- The bus clear of a STUCK bus at its check, with SDA held low. -/
def clearOfStuck : State :=
  { live with bus := { live.bus with status := .stuck, sda := false, idleHigh := none, clear := some .stuckCheck } }

/-- R121: nine pulses of SCL with SDA released, and after the ninth the clear has failed. -/
theorem test_nine_pulses_fail :
    shape 4 clearOfStuck = [(false, false), (true, false), (false, false), (true, false)]
      ∧ clearOfStuck.drives .sda = false ∧ (halves 17 clearOfStuck).bus.clear = some .stuckCheck
      ∧ (halves 17 clearOfStuck).bus.wire = some ⟨.pulseHigh 9, 1700#32⟩ ∧ (halves 18 clearOfStuck).bus.clear = none
      ∧ (halves 18 clearOfStuck).bus.watch = none := by decide +kernel

/-- R121: the first pulse that finds SDA high is the last: the close follows it, and the clear has succeeded. -/
theorem test_first_high_ends_the_pulses :
    let s := halves 2 ((halves 4 clearOfStuck).busEvent (.sda true))
    shape 3 s = [(false, false), (true, false), (true, true)] ∧ (halves 1 s).bus.clear = some .stuckCheck
      ∧ (halves 2 s).bus.clear = none ∧ (halves 2 s).bus.watch = some 800#32 := by decide +kernel

/-- R106: with no command waiting the bus timer takes one step of 50 ns, and at the last one of 100 µs it waits. -/
theorem test_idle_steps :
    (∃ t, step live = .next t ∧ t.bus.timer = 1#32 ∧ t.now = live.now)
      ∧ ((live.pass 1998).pass 1).bus.timer = 1999#32 ∧ ((live.pass 1999).pass 1).bus.timer = 1999#32
      ∧ (after (.timeBaseTick [] []) (live.pass 1999)).bus.timer = 2000#32 :=
  ⟨⟨live.pass 1, rfl, by decide +kernel, by decide +kernel⟩, by decide +kernel⟩

/-! ### States that meet the hypotheses of the statements, in their order

Each theorem below names its statement. Where a statement has several clauses, each is met at a state of its own. -/

/-- R20's wording, decided. -/
theorem ofPage_iff (s : State) (d : Index) (p : Nat) (m : Index) : s.ofPage d p m ↔ s.holdsPage m d p = true := by
  unfold State.ofPage State.holdsPage
  cases (s.buffer m).hold <;> simp

/-- R35's source mask, decided. -/
theorem source_iff (s : State) (m : Index) (pos : Nat) :
    (∃ h, (s.buffer m).hold = some h ∧ h.source.has pos = true) ↔ (s.buffer m).hold.any (fun h => h.source.has pos) = true := by
  cases (s.buffer m).hold <;> simp

/-- R35's absence from every buffer, decided. -/
theorem heldNowhere_of (s : State) (d : Index) (p pos : Nat)
    (a : ∀ m : Index, (s.holdsPage m d p && ((s.bufferState m).dirty || s.bufferState m == .clean)
      && (s.buffer m).hold.any (fun h => h.source.has pos)) = false) : s.heldNowhere d p pos := by
  intro m h hm hd hp hs
  have b := a m
  have c : s.holdsPage m d p = true := (ofPage_iff s d p m).1 ⟨h, hm, hd, hp⟩
  rw [c, hm] at b
  cases x : h.source.has pos
  · rfl
  · rcases hs with hs | hs <;> simp [hs, x] at b

/-- STARTING, the record read having failed. -/
def unread : State :=
  { State.reset with control := { State.reset.control with
      recordRead := some { retries := 0, firstNack := none, nextAttempt := none, failed := true } } }

/-- The layout command, the mask command, the tick and DROP FAULT, each with its change. -/
theorem witness_LayoutMaskTimeAndLogHaveTheirOwnCommands :
    (∃ s t : State, ∃ bs, exec (.startupRecordReadEnd bs) s = .next t ∧ t.layout ≠ s.layout ∧ t.events.mask = s.events.mask)
      ∧ (∃ t, exec (.setEventMask [0#8, 1#8]) (inFrame live) = .next t ∧ t.events.mask ≠ (inFrame live).events.mask)
      ∧ (∃ t, exec (.timeBaseTick [] []) live = .next t ∧ t.now ≠ live.now)
      ∧ ∃ s t : State, exec (.dropFault [0#8, 0#8]) s = .next t ∧ s.events.log ≠ t.events.log :=
  ⟨⟨unread, _, [], next_after (by decide +kernel), by decide +kernel, by decide +kernel⟩,
    ⟨_, next_after (by decide +kernel), by decide +kernel⟩, ⟨_, next_after (by decide +kernel), by decide +kernel⟩,
    ⟨inFrame (live.logFault (abandonFault 0#8 none none)), _, next_after (by decide +kernel), by decide +kernel⟩⟩

/-- A tick whose edges take SET EVENT MASK, and one whose edges take DROP FAULT, each with its change. -/
theorem witness_LayoutMaskTimeAndLogHaveTheirOwnCommands_edges :
    let tick := fun bytes : List Byte => Instr.timeBaseTick [] (bytes.flatMap clocks)
    let logged := inFrame (live.logFault (abandonFault 0#8 none none))
    (∃ t, exec (tick [0x04#8, 0#8, 1#8]) (inFrame live) = .next t ∧ t.events.mask ≠ (inFrame live).events.mask
        ∧ tookAtTick (tick [0x04#8, 0#8, 1#8]) (inFrame live) t 0x04#8)
      ∧ ∃ t, exec (tick [0x06#8, 0#8, 0#8]) logged = .next t ∧ t.events.log ≠ logged.events.log
        ∧ tookAtTick (tick [0x06#8, 0#8, 0#8]) logged t 0x06#8 :=
  ⟨⟨_, next_after (by decide +kernel), by decide +kernel, ⟨_, _, rfl⟩, by decide +kernel, by decide +kernel⟩,
    ⟨_, next_after (by decide +kernel), by decide +kernel, ⟨_, _, rfl⟩, by decide +kernel, by decide +kernel⟩⟩

/-- A parked stream. -/
def parked : State :=
  { carrying .stream .park live with reads :=
      { stream := .parked { device := 0, next := 0x205, last := 0x2FF } { since := { ms := 0#32, frac := 0 }, period := 10 }
        ahead := { device := 0, first := 0x201, bytes := [1#8, 2#8, 3#8, 4#8] }, dropsAhead := false } }

/-- A reload that a HELD buffer abandons. -/
def abandoning : State := inMode (.reloading .draining) (put 3 (page 0 0x20 1#64 (.held .dataRefused)) live)

/-- The clauses: no access waiting, one waiting, no reload, a parked stream, none, a reload abandoned, and nothing that
disturbs. -/
theorem witness_SettlementChangesOnlyTheseParts :
    live.port.isWaiting = false ∧ (∃ req hold, (reading 0x340 .device none live).port = .waiting req hold)
      ∧ live.control.mode.isReloading = false ∧ (∃ p d, parked.reads.stream = .parked p d)
      ∧ live.reads.stream.isParked = false ∧ live.undisturbed = true
      ∧ abandoning.control.mode.isReloading = true ∧ abandoning.bufferState 3 = .held
      ∧ (∀ m < (3 : Index), abandoning.bufferState m ≠ .held) ∧ abandoning.events.log.length < 7 :=
  ⟨rfl, ⟨_, _, rfl⟩, rfl, ⟨_, _, rfl⟩, rfl, rfl, rfl, by decide +kernel, by decide +kernel, by decide +kernel⟩

/-- A page of device 0 in COMMIT, SEALED and GATHER, a CLEAN page, a logged fault, and a command that waits. -/
def stocked (c : Instr) : State :=
  let aged (g : Nat) (b : Buffer) : Buffer := { b with hold := some { fieldsOf b with generation := g } }
  let s := put 0 (page 0 0x34 1#64 (.commit false [{ first := 0, count := 1 }]))
    (put 1 (aged 1 (page 0 0x34 2#64 (.sealed false))) (put 2 (aged 2 (page 0 0x34 4#64 (.gather 20#32)))
      (put 3 (page 1 0 0#64 (.clean 0#32)) (live.logFault (abandonFault 0#8 none none)))))
  { s with pending := [c], table := { s.table with queue := [1] }, engine := { s.engine with requests := [0] } }

theorem witness_EveryStepLeavesTheStateSettled :
    (stocked .flush).Settled ∧ ∃ t, step (stocked .flush) = .next t := by
  refine ⟨?_, next_of (by decide +kernel)⟩
  unfold State.Settled
  decide +kernel

theorem witness_EventUnitStaysWellKept :
    (stocked (.timeBaseTick [] [])).events.WellKept ∧ ∃ t, step (stocked (.timeBaseTick [] [])) = .next t := by
  refine ⟨?_, next_of (by decide +kernel)⟩
  unfold EventUnit.WellKept
  decide +kernel

theorem witness_QueueStaysExact :
    (stocked (.gatherDeadlineExpiry 2)).QueueExact ∧ ∃ t, step (stocked (.gatherDeadlineExpiry 2)) = .next t := by
  refine ⟨?_, next_of (by decide +kernel)⟩
  unfold State.QueueExact
  decide +kernel

theorem witness_GenerationsStayRanked :
    (stocked (access true 0x342)).GenerationsRanked ∧ ∃ t, step (stocked (access true 0x342)) = .next t := by
  refine ⟨?_, next_of (by decide +kernel)⟩
  unfold State.GenerationsRanked
  decide +kernel

theorem witness_PagesAndCommitsStaySingle :
    (stocked .busGrant).PagesSingle ∧ (stocked .busGrant).OneCommitEach ∧ (∃ t, step (stocked .busGrant) = .next t)
      ∧ (stocked .busGrant).GenerationsRanked ∧ (stocked .busGrant).GatherNewest := by
  refine ⟨?_, ?_, next_of (by decide +kernel), ?_, ?_⟩
  · unfold State.PagesSingle; decide +kernel
  · unfold State.OneCommitEach; decide +kernel
  · unfold State.GenerationsRanked; decide +kernel
  · unfold State.GatherNewest; decide +kernel

theorem witness_RequestsStayOrdered :
    (stocked .busGrant).OneCommitEach ∧ (stocked .busGrant).RequestsOrdered ∧ ∃ t, step (stocked .busGrant) = .next t := by
  refine ⟨?_, ?_, next_of (by decide +kernel)⟩
  · unfold State.OneCommitEach; decide +kernel
  · unfold State.RequestsOrdered State.inFillOrCommit; decide +kernel

theorem witness_BusRecordStaysWellKept :
    (stocked .busGrant).bus.WellKept ∧ (stocked .busGrant).TimerInTick ∧ ∃ t, step (stocked .busGrant) = .next t := by
  refine ⟨by constructor <;> decide +kernel, ?_, next_of (by decide +kernel)⟩
  unfold State.TimerInTick
  decide +kernel

/-- In READING, a stream whose queue the reload has emptied receives. -/
def emptied : State :=
  { inMode (.reloading .reading) (carrying .stream .receive live) with
    reads := { stream := .running { device := 0, next := 0x205, last := 0x2FF }, ahead := { device := 0, first := 0, bytes := [] },
               dropsAhead := true }
    pending := [.streamByteReceived 0x3C#8] }

theorem witness_ModesStayOrdered :
    ((stocked .powerFailFlush).ModeOrdered ∧ ∃ t, step (stocked .powerFailFlush) = .next t)
      ∧ emptied.reads.dropsAhead = true ∧ emptied.reads.EmptiedKept ∧ ∃ t, step emptied = .next t :=
  ⟨⟨by constructor <;> decide +kernel, next_of (by decide +kernel)⟩, rfl, fun _ => ⟨rfl, nofun⟩, next_of (by decide +kernel)⟩

/-- R88, R171: PFW# falls in READING with that stream open, and its bytes and its closing byte leave the queue empty. -/
theorem test_emptied_queue_stays_empty :
    let t := after .powerFailFlush emptied
    let closing := after (.streamByteReceived 0x3D#8) (after (.streamByteReceived 0x3C#8) t)
    t.control.mode = .safe ∧ t.reads.dropsAhead = true ∧ closing.reads.stream = .closed ∧ closing.reads.ahead.bytes = []
      ∧ closing.reads.dropsAhead = false := by decide +kernel

/-- RUNNING under the fallback layout. -/
def plain (pending : List Instr) : State := { live with pending := pending, layout := fallbackLayout 0x50#7 1 }

theorem fallback_valid : (fallbackLayout 0x50#7 1).Valid where
  params := by constructor <;> decide
  devices := by
    intro i e h
    fin_cases i <;> cases h
    constructor <;> decide
  targetsApart := by
    intro i j d e hij hi hj
    fin_cases i <;> cases hi
    fin_cases j <;> cases hj
    exact absurd rfl hij
  windows := by
    intro j w h
    fin_cases j <;> cases h
    exact ⟨_, rfl, by constructor <;> decide⟩
  windowsApart := by
    intro i j v w hij hi hj
    fin_cases i <;> cases hi
    fin_cases j <;> cases hj
    exact absurd rfl hij

theorem plain_layoutKept (pending : List Instr) : (plain pending).LayoutKept where
  layout := fallback_valid
  bootTarget := (by decide : 0x50 ≤ (0x50#7 : BitVec 7).toNat ∧ (0x50#7 : BitVec 7).toNat ≤ 0x57)
  bootBytes := .inl rfl

theorem witness_LayoutStaysValid :
    (plain [access true 0x40]).LayoutKept ∧ ∃ t, step (plain [access true 0x40]) = .next t :=
  ⟨plain_layoutKept _, next_of (by decide +kernel)⟩

theorem witness_AcceptedWritesAreReadBack :
    (plain []).LayoutKept ∧ (plain []).GenerationsRanked ∧ (plain []).GatherNewest ∧ (plain []).PagesSingle
      ∧ (plain []).control.mode = .running ∧ (plain []).port = .idle
      ∧ ∃ t u, exec (.hostAccessTaken true 0x7F#19 true true 0xBEEF#16) (plain []) = .next t ∧ t.hrdy ∧ t.herr = false
        ∧ exec .accessEnd t = .next u := by
  refine ⟨plain_layoutKept _, ?_, ?_, ?_, rfl, rfl, _, _, next_after (by decide +kernel), ?_, ?_,
    next_after (by decide +kernel)⟩
  · unfold State.GenerationsRanked; decide +kernel
  · unfold State.GatherNewest; decide +kernel
  · unfold State.PagesSingle; decide +kernel
  · decide +kernel
  · decide +kernel

/-- The bytes of 00h to `n` that a transaction has left to send. -/
def toSend (n : Nat) : List Byte := (List.range n).map (BitVec.ofNat 8)

/-- The probe clause, at its time to the step, CYCLING and SILENT; a transaction in each phase in which a byte passes, with its requester; and each kind of byte acknowledged or not. -/
theorem witness_TicksAdvanceAndProbesFallDue :
    let s := fun st : DeviceStatus => withStatus 3 st 7 (atTime 0#32 5 live)
    ((∃ start, (s (cycling false)).record 3 = { status := DeviceStatus.cycling start (timer false), nacks := 7 })
      ∧ (s (.silent (timer false))).record 3 = { status := DeviceStatus.silent (timer false), nacks := 7 }
      ∧ (timer false).next.period ≤ (timer false).next.since.elapsed (s (cycling false)).now
      ∧ (s (cycling false)).job ≠ some (.probe 3) ∧ (s (.silent (timer false))).job ≠ some (.probe 3))
    ∧ ((∀ j, ¬live.carries j) ∧ ∀ x : Transaction, (withTransfer x live).carries x.job)
    ∧ (transfer .stream .open []).phase = .open
    ∧ (∃ h, ((put 3 (page 2 0x100 0x12#64 (.fill false)) live).buffer 3).hold = some h)
    ∧ (transfer (.run 2) .send (toSend 5)).toSend = 0#8 :: [1#8, 2#8, 3#8, 4#8]
    ∧ (∀ k, { transfer (.fill 3) .receive [] with remaining := some k }.remaining = some k)
    ∧ sensorSteps[4 - 1]? = some (.receive 2 true) ∧ (transfer .sequence .receive []).received.length + 1 < 2
    ∧ (sensing 4 false live).slot.state = .running sensorSteps 1 0 0 4 1 false := by
  refine ⟨⟨⟨_, rfl⟩, rfl, by decide +kernel, by decide +kernel, by decide +kernel⟩,
    ⟨fun j h => absurd h.1 (by decide +kernel), fun x => ⟨rfl, rfl, rfl, rfl⟩⟩, rfl, ⟨_, rfl⟩, rfl, fun _ => rfl, rfl,
    by decide +kernel, rfl⟩

/-- SCS# high; a command byte and an argument byte of SUBMIT SEQUENCE, at their first edge and at their eighth; a reply. -/
theorem witness_TicksAdvanceAndProbesFallDue_edges :
    let at7 := fun code => after (.timeBaseTick [] ((clocks code).take 14)) (inFrame live)
    let args := fun n => after (.timeBaseTick [] ((clocks 0x0C#8 ++ clocks 5#8 ++ clocks 1#8).take n)) (inFrame live)
    (live.service.scs = true ∧ live.service.sck = false ∧ (inFrame live).service.scs = false ∧ (inFrame live).service.sck = false)
      ∧ ((inFrame live).service.frame = .command [] ∧ (at7 0x0C#8).service.frame = .command ((bitsOf 0x0C#8).take 7)
        ∧ (bitsOf 0x0C#8).take 7 ++ [false] = bitsOf 0x0C#8 ∧ 0 < expectedLength 0x0C#8 [])
      ∧ ((args 32).service.frame = .arguments 0x0C#8 [5#8] 2 [] ∧ (args 46).service.frame = .arguments 0x0C#8 [5#8] 2 ((bitsOf 1#8).take 7)
        ∧ (bitsOf 1#8).take 7 ++ [true] = bitsOf 1#8 ∧ ([5#8] ++ [1#8]).length < expectedLength 0x0C#8 ([5#8] ++ [1#8])
        ∧ (args 46).service.scs = false ∧ (args 46).service.sck = false)
      ∧ (after .getStatus (inFrame live)).service.sck = true
      ∧ ∃ r, (after (.timeBaseTick [] [.fall]) (after .getStatus (inFrame live))).service
          = { frame := .answering 0x01#8 [] 0 0 .ok r 0, scs := false, sck := false } :=
  ⟨by decide +kernel, by decide +kernel, by decide +kernel, by decide +kernel, live.statusReport, by decide +kernel⟩

/-- SCL held low by the bridge and not; a byte received with no bit of it sampled, with five of its bits and with all. -/
theorem witness_TicksAdvanceAndProbesFallDue_lines :
    (runOnBus .send [0x81#8] true).drives .scl = true ∧ live.drives .scl = false
      ∧ (∀ v, (carrying (.fill 3) .receive live).agrees [v] = true)
      ∧ ∀ k ∈ [5, 8], (inBit (.clockHigh ((bitsOf 0xA6#8).take k)) (carrying (.fill 3) .receive live)).agrees [0xA6#8] = true
        ∧ (inBit (.clockHigh ((bitsOf 0xA6#8).take k)) (carrying (.fill 3) .receive live)).refusing = false :=
  ⟨by decide +kernel, by decide +kernel, fun _ => agrees_of_no_wire _ _ rfl, by decide +kernel⟩

/-- Seven bits of GET STATUS and of the unknown code 11h, and of the last argument byte of GET BUFFER. -/
theorem witness_TicksAdvanceAndProbesFallDue_takes :
    let at7 := fun code => after (.timeBaseTick [] ((clocks code).take 14)) (inFrame live)
    let arg7 := after (.timeBaseTick [] (clocks 0x07#8 ++ (clocks 0x03#8).take 14)) (inFrame live)
    (∀ code : Byte, code = 0x01#8 ∨ code = 0x11#8 →
        (at7 code).service = { frame := .command ((bitsOf code).take 7), scs := false, sck := false }
          ∧ (bitsOf code).take 7 ++ [true] = bitsOf code ∧ expectedLength code [] = 0)
      ∧ serviceInstr 0x01#8 [] = some .getStatus ∧ serviceInstr 0x11#8 [] = none
      ∧ arg7.service = { frame := .arguments 0x07#8 [] 1 ((bitsOf 0x03#8).take 7), scs := false, sck := false }
      ∧ (bitsOf 0x03#8).take 7 ++ [true] = bitsOf 0x03#8 ∧ serviceInstr 0x07#8 [0x03#8] = some (.getBuffer [0x03#8])
      ∧ 0 < expectedLength 0x07#8 [] ∧ expectedLength 0x07#8 ([] ++ [0x03#8]) ≤ ([] ++ [0x03#8]).length := by
  refine ⟨?_, by decide +kernel⟩
  rintro code (rfl | rfl) <;> decide +kernel

/-- A RECEIVE step of two bytes with last-NACK clear, its first byte received, with an abort pending and without. -/
def receiving (abort : Bool) : State :=
  withTransfer { transfer .sequence .receive [] with received := [1#8] }
    { live with slot := { live.slot with state := .running [.open 0x48#7 true, .receive 2 false, .receive 1 true, .close] 0 1 0 2 0 abort } }

/-- Its last byte, with the abort pending; the last byte of a random read; a stream at the last offset and one that closes. -/
theorem witness_TicksAdvanceAndProbesFallDue_acknowledges :
    (∃ steps outLength received retries current outPos n, ∃ x : Transaction, (receiving true).bus.transaction = some x
        ∧ x.job = .sequence ∧ (receiving true).slot.state = .running steps outLength received retries current outPos true
        ∧ steps[current - 1]? = some (.receive n false) ∧ x.received.length + 1 = n)
      ∧ (∃ x : Transaction, x.job = .fill 3 ∧ x.remaining = some 1 ∧ (withTransfer x live).bus.transaction = some x)
      ∧ (∃ x : Transaction, x.job = .stream ∧ parked.bus.transaction = some x) ∧ emptied.job = some .stream :=
  ⟨⟨_, _, _, _, _, _, _, _, rfl, rfl, rfl, rfl, rfl⟩, ⟨{ transfer (.fill 3) .receive [] with remaining := some 1 }, rfl, rfl, rfl⟩,
    ⟨_, rfl, rfl⟩, rfl⟩

/-- R119, R135: with an abort pending the last byte of a RECEIVE step with last-NACK clear is NACKed, and a loss on that bit
counts; the byte before it is acknowledged. -/
theorem test_abort_nacks_the_last_byte :
    let lost := fun abort => (after (.arbitrationLoss { addressed := true, sent := 0, received := [] }) (receiving abort)).bus.status
    (receiving true).acknowledges = false ∧ (receiving false).acknowledges = true ∧ lost true = .foreign ∧ lost false = .owned
      ∧ (withTransfer (transfer .sequence .receive []) (receiving true)).acknowledges = true := by decide +kernel

/-- R111: a tick that brings the last byte of a merge-fill hands it over, and the close follows. -/
theorem test_last_byte_of_a_fill :
    let t := after (.timeBaseTick [.byte (.received 7#8)] [])
      (withTransfer { transfer (.fill 3) .receive [] with received := [1#8, 2#8, 3#8], remaining := some 1 }
        (put 3 (page 2 0x100 0x12#64 (.fill false)) live))
    t.phase = some .close ∧ t.handed = [1#8, 2#8, 3#8, 7#8]
      ∧ (fieldsOf ((after (.fillEnd (.completed [])) t).buffer 3)).phase = .commit false [⟨1, 4⟩] := by decide +kernel

/-- R109 to R111: a write run with no data refused sends its address byte and its five bytes within a tick, and then
stands in the close; R49: the acknowledge clears the count of an IMMEDIATE device alone. -/
theorem test_run_traffic :
    let s := withTransfer (transfer (.run 2) .open (toSend 5)) (withStatus 0 .ready 2 (put 2 (page 0 0x20 0xF#64
      (.commit false [⟨0, 4⟩])) live))
    let t := after (.timeBaseTick (.byte .opened :: List.replicate 6 (.byte .sent)) []) s
    (t.phase = some .close ∧ t.unsent = 0 ∧ (t.record 0).nacks = 2)
      ∧ (after (.timeBaseTick [.byte .opened, .byte .sent, .byte .sent] []) s).unsent = 4 := by decide +kernel

/-- R155: GET BUFFER during a VERIFY read shows what it has placed so far. -/
theorem test_verify_traffic :
    let s := withTransfer { transfer (.verify 6) .reopen [] with read := true, remaining := some 64 }
      (put 6 (page 1 0 0#64 (.verify 0x10008)) live)
    let t := after (.timeBaseTick [.byte .opened, .byte .sent, .byte (.received 0xAB#8), .byte (.received 0xCD#8)] []) s
    (t.buffer 6).image.byte 1 = 0xCD#8 ∧ (t.buffer 6).image.byte 2 = 0xFF#8 ∧ t.acknowledges := by decide +kernel

/-- R146, R147, R150: the byte 07h clocked in picks GET BUFFER, and seven bits of 03h stand sampled; the next edge takes the
command of buffer 3, be it the row or brought by the tick, and SDO follows its falling edge: the status OK, then the number. -/
theorem test_sck_edges :
    let s := after (.timeBaseTick [] (clocks 0x07#8 ++ (clocks 0x03#8).take 14)) (inFrame live)
    let t := after (.getBuffer [0x03#8]) s
    s.service.frame = .arguments 0x07#8 [] 1 ((bitsOf 0x03#8).take 7) ∧ t.sdo = some false
      ∧ (sdoBits 16 t).map (Option.getD · false) = bitsOf 0x01#8 ++ bitsOf 0x03#8
      ∧ after (.getBuffer [0x05#8]) s = s ∧ after (.timeBaseTick [] [.rise true]) s = after (.timeBaseTick [] []) t := by
  decide +kernel

/-- R147: the byte clocked in picks the command: one without arguments is taken at its eighth edge, an unknown code too, and
one with arguments waits for them. -/
theorem test_bytes_pick_their_commands :
    ∀ code ∈ (List.range 18).map (BitVec.ofNat 8),
      (after (.timeBaseTick [] (clocks code)) (inFrame live)).service.frame.commandTaken
        = if [3, 4, 6, 7, 9, 10, 11, 12].contains code.toNat then none else some code := by
  decide +kernel

/-- R161, R164: within a tick the edges of SCK set the mask, and drop the oldest record, its number being 0000h. -/
theorem test_ticks_take_commands :
    let clocked := fun (bytes : List Byte) s => after (.timeBaseTick [] (bytes.flatMap clocks)) (inFrame s)
    (clocked [0x04#8, 0x12#8, 0x34#8] live).events.mask = 0x1234#16
      ∧ (clocked [0x06#8, 0#8, 0#8] (live.logFault (abandonFault 0#8 none none))).events.log = [] := by decide +kernel

/-- R146: SDO keeps the bit that a rising edge sampled until the falling edge. -/
theorem test_sdo_changes_at_the_fall :
    let t := after (.timeBaseTick [] [.rise true])
      { live with service := { frame := .answering 0x08#8 [] 0 7 .ok [] 0, scs := false, sck := false } }
    t.sdo = some true ∧ (after (.timeBaseTick [] [.fall]) t).sdo = some false := by decide +kernel

/-- The four clauses, in each mode they name: refused, held, no lane, and a hold that ends. -/
theorem witness_AccessesAreTakenByMode :
    (∀ m : Mode, m = .flushing ∨ m = .safe ∨ m = .starting ∨ m = .reloading .sequence ∨ m = .running →
        (inMode m live).port = .idle ∧ (inMode m live).control.mode = m)
      ∧ ∀ m : Mode, m = .running ∨ m = .flushing ∨ m = .safe →
        (∃ u : State, u.port = .waiting (latchedRequest true 0x7FFFF#19 false true 0#16) .mode ∧ u.control.mode = m) :=
  ⟨fun _ _ => ⟨rfl, rfl⟩,
    fun m _ => ⟨{ inMode m live with port := .waiting (latchedRequest true 0x7FFFF#19 false true 0#16) .mode }, rfl, rfl⟩⟩

/-- The four classes: the first byte past window 0, a write of window 2, its last check byte of a page, and a SILENT
device. -/
theorem witness_ClassesFollowTheWindowsAndRefuseAccesses :
    live.port = .idle ∧ live.control.mode = .running
      ∧ live.layout.classify (latchedRequest false 0x400#19 true false 0#16) = .unmapped
      ∧ (live.layout.classify (latchedRequest true 0x10000#19 true false 0#16) = .readOnly 2
          ∧ ∃ w, live.layout.windows.get 2 = some w)
      ∧ (live.layout.classify (latchedRequest true 0x801F#19 true true 0#16) = .checkBytes 1 62
          ∧ ∃ w, live.layout.windows.get 1 = some w)
      ∧ ∃ t, live.layout.classify (request true 0x7FE) = .mapped t
          ∧ (withStatus 0 (.silent (timer false)) 9 live).isSilent t.device := by
  refine ⟨rfl, rfl, by decide +kernel, ⟨by decide +kernel, _, rfl⟩, ⟨by decide +kernel, _, rfl⟩,
    translationOf (request true 0x7FE), by decide +kernel, by decide +kernel⟩

/-- The lowest-numbered window of each access: a write of the read-only one, a write whose first check byte is P - 2, one
whose only check byte is P - 1, a write just below them and a read of them. -/
theorem witness_ClassesFollowTheWindowsAndRefuseAccesses_classes :
    (∀ x : Index × HostRequest, x = (2, request true 0x20000) ∨ x = (1, request true 0x1003E)
        ∨ x = (1, latchedRequest true 0x801F#19 false true 0#16) ∨ x = (1, request true 0x1003C) ∨ x = (1, request false 0x1003E) →
      (x.2.laneL || x.2.laneU) = true ∧ (lay.windows.get x.1).any (fun w => w.covers x.2.firstAddress
        && (lay.devices.get w.device).isSome) = true
      ∧ ∀ j < x.1, (lay.windows.get j).all (fun w => !w.covers x.2.firstAddress) = true)
    ∧ lay.classify (request true 0x20000) = .readOnly 2 ∧ lay.classify (request true 0x1003E) = .checkBytes 1 62
    ∧ lay.classify (latchedRequest true 0x801F#19 false true 0#16) = .checkBytes 1 63
    ∧ lay.classify (request true 0x1003C) = .mapped (translationOf (request true 0x1003C))
    ∧ lay.classify (request false 0x1003E) = .mapped (translationOf (request false 0x1003E)) := by
  refine ⟨?_, by decide +kernel⟩
  rintro x (rfl | rfl | rfl | rfl | rfl) <;> decide +kernel

theorem witness_AccessEndAndWithdrawalFreeThePort :
    (∃ a, (after (access true 0x340) live).port = .answered (request true 0x340) a)
      ∧ (∃ (s : State) (t : Translation), s.port = .waiting (request true 0x340) (.buffers t))
      ∧ (after (access true 0x340) (inMode .starting live)).port = .waiting (request true 0x340) .mode
      ∧ ∃ r, (after (access false 0x340) live).port = .waiting (request false 0x340) (.readPath r) :=
  ⟨⟨{ herr := false, hd := none }, by decide +kernel⟩,
    ⟨{ live with port := .waiting (request true 0x340) (.buffers (translationOf (request true 0x340))) }, _, rfl⟩,
    by decide +kernel, ⟨⟨translationOf (request false 0x340), [], 0, .bus, none⟩, by decide +kernel⟩⟩

/-- spec/02, the write at 1006: page 34h in GATHER in buffer 0. -/
def gathering : State := atTime 1006#32 0 (put 0 (page 0 0x34 3#64 (.gather 1020#32)) live)

theorem witness_WriteMergesIntoItsGatherBuffer :
    let t := translationOf (request true 0x342)
    gathering.port = .idle ∧ gathering.control.mode = .running
      ∧ gathering.layout.classify (latchedRequest true 0x1A1#19 true true 0xBEEF#16) = .mapped t
      ∧ gathering.isSilent t.device = false ∧ gathering.PagesSingle
      ∧ (gathering.buffer 0).hold = some (fieldsOf (page 0 0x34 3#64 (.gather 1020#32)))
      ∧ (fieldsOf (page 0 0x34 3#64 (.gather 1020#32))).device = t.device
      ∧ (fieldsOf (page 0 0x34 3#64 (.gather 1020#32))).page = t.page ∧ t.gatherTime ≠ 0
      ∧ pageComplete t.checked t.pageSize (3#64 ||| Mask.of t.positions) = false := by
  unfold State.PagesSingle
  decide +kernel

/-- The last two positions of page 34h merge, and a merge of a window with gather time 0; device READY or CYCLING. -/
theorem witness_WriteMergesIntoItsGatherBuffer_seals :
    ∀ x ∈ [(0x342, page 0 0x34 0xFFF3#64 (.gather 1020#32)), (0x10010, page 1 0 0xF#64 (.gather 1020#32))], ∀ busy : Bool,
      let t := translationOf (request true x.1)
      let s := put 0 x.2 (if busy then withStatus t.device (cycling false) 0 live else live)
      (s.port = .idle ∧ s.control.mode = .running ∧ s.isSilent t.device = false ∧ s.PagesSingle
          ∧ s.layout.classify (latchedRequest true (BitVec.ofNat 19 (x.1 / 2)) true true 0xBEEF#16) = .mapped t)
        ∧ (s.buffer 0).hold = some (fieldsOf x.2) ∧ (fieldsOf x.2).phase = .gather 1020#32
        ∧ (fieldsOf x.2).device = t.device ∧ (fieldsOf x.2).page = t.page
        ∧ (t.gatherTime = 0 ∨ pageComplete t.checked t.pageSize ((fieldsOf x.2).written ||| Mask.of t.positions) = true)
        ∧ (busy = true → (s.record t.device).status.isReady = false) ∧ s.notQueued 0 := by
  unfold State.PagesSingle State.notQueued
  decide +kernel

/-- R29: the write that completes its page is sealed at acceptance, and stands in the queue while its device is CYCLING. -/
theorem test_complete_page_is_sealed :
    let s := put 0 (page 0 0x34 0xFFF3#64 (.gather 1020#32)) (withStatus 0 (cycling false) 0 live)
    let t := after (access true 0x342) s
    t.bufferState 0 = .sealed ∧ t.table.queue = [0] ∧ t.hrdy ∧ t.herr = false := by decide +kernel

/-- Every buffer holds a page of device 1, in the phase given. -/
def crowd (ph : Index → Phase) : State := allIndices.foldl (fun s m => put m (page 1 m.val 1#64 (ph m)) s) live

/-- The reserve of 1 is just met: seven buffers are spare, or two. -/
theorem witness_WriteOpensTheLowestFreeBuffer :
    let t := translationOf (request true 0x340)
    let full := put 0 (page 0 0x33 1#64 (.gather 20#32)) (put 1 (page 0 0x35 1#64 (.gather 20#32)) (put 2 (page 0 0x36 1#64 (.gather 20#32))
      (put 3 (page 0 0x37 1#64 (.gather 20#32)) (put 4 (page 0 0x38 1#64 (.gather 20#32)) (put 5 (page 0 0x34 1#64 (.sealed false)) live)))))
    let waiting := { full with port := .waiting (request true 0x340) (.buffers t) }
    (∀ s : State, s = full ∨ s = waiting →
      s.isSilent t.device = false ∧ s.bufferState 6 = .free ∧ (∀ m < (6 : Index), s.bufferState m ≠ .free)
        ∧ (∀ m, s.ofPage t.device t.page m → s.bufferState m ≠ .gather ∧ s.bufferState m ≠ .clean)
        ∧ s.layout.params.reserve < s.spareBuffers)
      ∧ t.gatherTime ≠ 0 ∧ pageComplete t.checked t.pageSize (Mask.of t.positions) = false
      ∧ full.port = .idle ∧ full.control.mode = .running
      ∧ full.layout.classify (latchedRequest true 0x1A0#19 true true 0xBEEF#16) = .mapped t
      ∧ waiting.port = .waiting (latchedRequest true 0x1A0#19 true true 0xBEEF#16) (.buffers t) := by
  refine ⟨?_, by decide +kernel⟩
  intro s h
  simp only [ofPage_iff]
  rcases h with rfl | rfl <;> decide +kernel

/-- A write of a window with gather time 0 to a device that is CYCLING, and with the reserve undershot a write beside two
GATHER buffers of one last write, and beside none. -/
theorem witness_WriteOpensTheLowestFreeBuffer_seals :
    (let t := translationOf (request true 0x10010)
      let s := withStatus 1 (cycling false) 0 live
      t.gatherTime = 0 ∧ s.layout.params.reserve < s.spareBuffers ∧ (s.record t.device).status.isReady = false ∧ s.notQueued 0
        ∧ s.bufferState 0 = .free ∧ s.isSilent t.device = false
        ∧ s.layout.classify (latchedRequest true 0x8008#19 true true 0xBEEF#16) = .mapped t)
    ∧ (let t := translationOf (request true 0x340)
      let s := fun ph => put 7 { image := Image.erased, hold := none } (withStatus 1 (cycling false) 0 (crowd ph))
      let two := s fun m => if m = 3 ∨ m = 6 then .gather 20#32 else .sealed false
      t.gatherTime ≠ 0 ∧ pageComplete t.checked t.pageSize (Mask.of t.positions) = false
        ∧ two.bufferState 7 = .free ∧ (∀ m < (7 : Index), two.bufferState m ≠ .free)
        ∧ two.spareBuffers = two.layout.params.reserve ∧ two.isSilent t.device = false
        ∧ two.layout.classify (latchedRequest true 0x1A0#19 true true 0xBEEF#16) = .mapped t
        ∧ (two.buffer 3).hold = some (fieldsOf (page 1 3 1#64 (.gather 20#32)))
        ∧ (∀ m, two.bufferState m = .gather → two.writeAge m < two.writeAge 3 ∨ two.writeAge m = two.writeAge 3 ∧ 3 ≤ m)
        ∧ (two.record 1).status.isReady = false ∧ two.notQueued 3
        ∧ ∀ m, (s fun _ => .sealed false).bufferState m ≠ .gather) := by
  unfold State.notQueued
  decide +kernel

/-- R27: with one buffer FREE and a reserve of 1 a write seals the other GATHER buffer of the oldest last write. -/
theorem test_reserve_seal :
    let s := put 7 { image := Image.erased, hold := none } (withStatus 1 (cycling false) 0
      (crowd fun m => if m = 3 ∨ m = 6 then .gather 20#32 else .held .dataRefused))
    let t := after (access true 0x340) s
    t.bufferState 7 = .gather ∧ t.bufferState 3 = .sealed ∧ t.bufferState 6 = .gather ∧ t.table.queue = [3] := by decide +kernel

/-- Page 0 of device 1 CLEAN in buffer 2, device 1 READY or CYCLING: the conversion of a write of 10008h. -/
theorem witness_WriteOpensTheLowestFreeBuffer_converts :
    let t := translationOf (request true 0x10008)
    let s := put 2 (page 1 0 0#64 (.clean 0#32)) live
    let busy := withStatus 1 (cycling false) 0 s
    let h := fieldsOf (page 1 0 0#64 (.clean 0#32))
    (s.buffer 2).hold = some h ∧ h.phase = .clean 0#32 ∧ h.device = t.device ∧ h.page = t.page
      ∧ (∀ m, m ≠ 2 → ¬s.ofPage t.device t.page m) ∧ t.pageSize = s.pageSizeOf h ∧ t.pageSize ≤ 64
      ∧ s.layout.params.reserve < s.spareBuffers ∧ s.isSilent t.device = false
      ∧ (∀ m, s.ofPage t.device t.page m → s.bufferState m ≠ .gather) ∧ s.deviceAdmits h.device
      ∧ (s.windowEntryOf h.device h.page).any (·.checked) = true ∧ (busy.record h.device).status.isReady = false
      ∧ s.table.queue = [] ∧ s.port = .idle ∧ s.layout.classify (latchedRequest true 0x8004#19 true true 0xBEEF#16) = .mapped t := by
  unfold State.deviceAdmits
  simp only [ofPage_iff]
  decide +kernel

/-- What is asked of every CLEAN buffer, decided. -/
theorem cleans_of {s : State} {p : Index → Word → Bool}
    (a : ∀ m, (s.buffer m).hold.all (fun g => match g.phase with
      | .clean u => p m u
      | _ => true) = true) (m : Index) (g : PageHold) (u : Word) (hm : (s.buffer m).hold = some g) (hg : g.phase = .clean u) :
    p m u = true := by
  have b := a m
  rw [hm] at b
  simpa [hg] using b

/-- A CLEAN buffer beside a SEALED one of its page, and, with no buffer FREE, the CLEAN one of the oldest last use. -/
theorem witness_WriteOpensTheLowestFreeBuffer_makesRoom :
    (let t := translationOf (request true 0x10008)
      let s := put 2 (page 1 0 0#64 (.clean 0#32)) (put 3 (page 1 0 1#64 (.sealed false)) live)
      s.isSilent t.device = false ∧ (∀ m, s.ofPage t.device t.page m → s.bufferState m ≠ .gather) ∧ s.PagesSingle
        ∧ (s.buffer 2).hold.any (fun h => h.device == t.device && h.page == t.page) = true ∧ s.ofPage t.device t.page 3)
    ∧ (let t := translationOf (request true 0x340)
      let s := atTime 9#32 0 (crowd fun m => if m = 3 then .clean 2#32 else if m = 6 then .clean 1#32 else .sealed false)
      s.isSilent t.device = false ∧ (∀ m, s.ofPage t.device t.page m → s.bufferState m ≠ .gather ∧ s.bufferState m ≠ .clean)
        ∧ s.PagesSingle ∧ (∀ m, s.bufferState m ≠ .free)
        ∧ ∀ m g u, (s.buffer m).hold = some g → g.phase = .clean u →
          decide ((s.uptime - u).toNat < (s.uptime - 1#32).toNat
            ∨ (s.uptime - u).toNat = (s.uptime - 1#32).toNat ∧ 6 ≤ m) = true) := by
  unfold State.PagesSingle
  simp only [ofPage_iff]
  refine ⟨by decide +kernel, by decide +kernel, by decide +kernel, by decide +kernel, by decide +kernel, ?_⟩
  exact cleans_of (p := fun m u => decide _) (by decide +kernel)

/-- No buffer FREE or CLEAN, with none in GATHER, and with two of one last write, the lower one first; device 1 CYCLING. -/
theorem witness_WriteOpensTheLowestFreeBuffer_waits :
    let t := translationOf (request true 0x340)
    ∀ s : State, s = crowd (fun _ => .sealed false)
        ∨ s = withStatus 1 (cycling false) 0 (crowd fun m => if m = 3 ∨ m = 6 then .gather 20#32 else .sealed false) →
      s.isSilent t.device = false ∧ (∀ m, s.ofPage t.device t.page m → s.bufferState m ≠ .gather)
        ∧ (∀ m, s.bufferState m ≠ .free ∧ s.bufferState m ≠ .clean) ∧ s.bus.status ≠ .stuck ∧ s.port = .idle
        ∧ s.layout.classify (latchedRequest true 0x1A0#19 true true 0xBEEF#16) = .mapped t ∧ (∃ m, (s.bufferState m).working)
        ∧ (∀ m, s.bufferState m = .gather → s.writeAge m < s.writeAge 3 ∨ s.writeAge m = s.writeAge 3 ∧ 3 ≤ m)
        ∧ s.table.queue = [] := by
  intro t s h
  simp only [ofPage_iff]
  rcases h with rfl | rfl <;> decide +kernel

theorem witness_ReadsAreForwarded :
    let t := translationOf (request false 0x340)
    gathering.port = .idle ∧ gathering.control.mode = .running
      ∧ gathering.layout.classify (latchedRequest false 0x1A0#19 true true 0xBEEF#16) = .mapped t
      ∧ gathering.reads.stream.isParked = false
      ∧ ∀ pos ∈ t.positions, gathering.supplies t.device t.page pos 0 := by
  unfold State.supplies
  simp only [ofPage_iff, source_iff]
  decide +kernel

/-- Both bytes from a CLEAN buffer, and one from a dirty buffer before the other. -/
theorem witness_ReadsAreForwarded_clean :
    let t := translationOf (request false 0x340)
    let clean := put 2 (page 0 0x34 3#64 (.clean 5#32)) live
    let both := put 4 (page 0 0x34 1#64 (.sealed false)) clean
    (∀ s : State, s = clean ∨ s = both → s.PagesSingle ∧ (s.buffer 2).hold = some (fieldsOf (page 0 0x34 3#64 (.clean 5#32)))
        ∧ s.reads.stream.isParked = false)
      ∧ t.positions = [0, 1] ∧ (fieldsOf (page 0 0x34 3#64 (.clean 5#32))).source.has 0 = true
      ∧ (fieldsOf (page 0 0x34 3#64 (.clean 5#32))).source.has 1 = true
      ∧ (∀ m, clean.holdsPage m 0 0x34 = true → (clean.bufferState m).dirty = false)
      ∧ both.supplies 0 0x34 0 4
      ∧ ∀ m, both.holdsPage m 0 0x34 = true → (both.bufferState m).dirty = true →
          (both.buffer m).hold.any (fun h => h.source.has 1) = false := by
  unfold State.supplies
  simp only [ofPage_iff, source_iff]
  refine ⟨?_, by decide +kernel⟩
  unfold State.PagesSingle
  rintro s (rfl | rfl) <;> decide +kernel

/-- `live` with `n` bytes of device 0 from 340h on in the read-ahead queue. -/
def ahead (n : Nat) : State :=
  { live with reads := { live.reads with ahead := { device := 0, first := 0x340, bytes := (List.range n).map (BitVec.ofNat 8) } } }

/-- Both bytes from the queue, the last entries or not, and one from a dirty buffer before the other. -/
theorem witness_ReadsAreForwarded_ahead :
    let t := translationOf (request false 0x340)
    let both := put 4 (page 0 0x34 1#64 (.sealed false)) (ahead 2)
    (t.checked = false ∧ t.positions = [0, 1] ∧ t.pageStart = 0x340 ∧ (ahead 2).reads.ahead.bytes.drop 2 = []
        ∧ (ahead 3).reads.ahead.bytes.drop 2 = [2#8])
      ∧ (∀ n pos, pos = 0 ∨ pos = 1 → (ahead n).heldNowhere 0 0x34 pos) ∧ both.supplies 0 0x34 0 4 ∧ both.heldNowhere 0 0x34 1 := by
  refine ⟨by decide +kernel, ?_, ?_, heldNowhere_of _ _ _ _ (by decide +kernel)⟩
  · intro n pos _
    refine heldNowhere_of _ _ _ _ fun m => ?_
    have free : (ahead n).holdsPage m 0 0x34 = false := (by decide +kernel : ∀ m : Index, live.holdsPage m 0 0x34 = false) m
    rw [free]
    rfl
  · unfold State.supplies
    simp only [ofPage_iff, source_iff]
    decide +kernel

/-- R73, R24: the entries read and those before them leave the queue; a byte taken from a CLEAN buffer sets its last use. -/
theorem test_forwarded_sources :
    let t := after (access false 0x342) (ahead 6)
    (t.reads.ahead = { device := 0, first := 0x344, bytes := [4#8, 5#8] } ∧ t.hdOut = some 0x0302#16)
      ∧ (fieldsOf ((after (access false 0x340) (atTime 9#32 0 (put 2 (page 0 0x34 3#64 (.clean 5#32)) live))).buffer 2)).phase
          = .clean 9#32 := by decide +kernel

/-- A read of window 0 that has a value for its first byte and waits for its device. -/
def halfRead : ReadRecord :=
  { translation := translationOf (request false 0x340), values := [0x11#8], retries := 2, wait := .device, verifyBuffer := none }

/-- Position 0 is held and position 1 is not, so the byte at 341h goes to the memory; a fresh read of 350h does too. -/
theorem witness_ReadsAskForAStream :
    let s := put 0 (page 0 0x34 1#64 (.gather 20#32)) live
    let waiting := { s with port := .waiting (request false 0x340) (.readPath halfRead) }
    let fresh := translationOf (request false 0x350)
    (halfRead.translation.checked = false ∧ halfRead.translation.positions.drop halfRead.values.length = [1]
        ∧ waiting.heldNowhere halfRead.translation.device halfRead.translation.page 1
        ∧ waiting.reads.ahead.holds halfRead.translation.device (halfRead.translation.pageStart + 1) = false
        ∧ (waiting.record halfRead.translation.device).status = .ready ∧ waiting.bus.status ≠ .stuck
        ∧ waiting.reads.stream = .closed ∧ halfRead.wait = .device
        ∧ waiting.port = .waiting (latchedRequest false 0x1A0#19 true true 0xBEEF#16) (.readPath halfRead))
      ∧ fresh.checked = false ∧ fresh.positions = [0, 1] ∧ s.heldNowhere fresh.device fresh.page 0
      ∧ s.reads.ahead.holds fresh.device (fresh.pageStart + 0) = false ∧ (s.record fresh.device).status = .ready
      ∧ s.port = .idle ∧ s.control.mode = .running
      ∧ s.layout.classify (latchedRequest false 0x1A8#19 true true 0xBEEF#16) = .mapped fresh := by
  refine ⟨⟨by decide +kernel, by decide +kernel, heldNowhere_of _ _ _ _ (by decide +kernel), by decide +kernel, by decide +kernel,
    by decide +kernel, rfl, rfl, by decide +kernel⟩, by decide +kernel, by decide +kernel, heldNowhere_of _ _ _ _ (by decide +kernel),
    by decide +kernel⟩

/-- A checked read of 10008h: at its taking edge, and while it waits for a buffer, buffer 0 being taken. -/
theorem witness_CheckedReadsTakeAVerifyBuffer :
    let s := put 0 (page 1 0 0x30000#64 (.held .checkMismatch)) live
    let t := translationOf (request false 0x10008)
    let r : ReadRecord := { translation := t, values := [], retries := 0, wait := .buffer, verifyBuffer := none }
    let waiting := { s with port := .waiting (request false 0x10008) (.readPath r) }
    (∀ u : State, u = s ∨ u = waiting →
      (u.record t.device).status = .ready ∧ u.bus.status ≠ .stuck ∧ u.bufferState 1 = .free
        ∧ (∀ m < (1 : Index), u.bufferState m ≠ .free)
        ∧ u.layout.params.reserve < (allIndices.filter fun m => u.bufferState m == .free || u.bufferState m == .clean).length
        ∧ u.heldNowhere t.device t.page 8)
      ∧ t.checked = true ∧ r.verifyBuffer = none ∧ t.positions.drop r.values.length = [8, 9]
      ∧ s.port = .idle ∧ s.control.mode = .running
      ∧ s.layout.classify (latchedRequest false 0x8004#19 true true 0xBEEF#16) = .mapped t
      ∧ waiting.port = .waiting (latchedRequest false 0x8004#19 true true 0xBEEF#16) (.readPath r) ∧ r.wait = .buffer := by
  refine ⟨?_, by decide +kernel⟩
  intro u h
  rcases h with rfl | rfl <;>
    exact ⟨by decide +kernel, by decide +kernel, by decide +kernel, by decide +kernel, by decide +kernel,
      heldNowhere_of _ _ _ _ (by decide +kernel)⟩

/-- A GATHER buffer at its deadline, to the millisecond. -/
def due (d : Index) (p : Nat) (w : Mask) : State := atTime 20#32 0 (put 5 (page d p w (.gather 20#32)) live)

/-- The page fields of that buffer. -/
def dueHold (d : Index) (p : Nat) (w : Mask) : PageHold := fieldsOf (page d p w (.gather 20#32))

/-- That state with device 0 CYCLING. -/
def dueBusy : State := withStatus 0 (cycling false) 0 (due 0 0x34 1#64)

/-- The clause of a device that is not READY, and the hypotheses common to the paths: a page with runs, a merge-fill
page, an incomplete and a complete checked page. -/
theorem witness_ExpiredBuffersAreSealedAndTaken :
    ((dueBusy.buffer 5).hold = some (dueHold 0 0x34 1#64) ∧ deadlineReached 0#32 20#32 dueBusy.uptime
        ∧ (dueBusy.record 0).status.isReady = false ∧ (∀ m ∈ dueBusy.table.queue, dueBusy.admits m = false)
        ∧ 5 ∉ dueBusy.table.queue)
      ∧ ∀ x ∈ [((0 : Index), 0x34, 5#64), (2, 0x100, 5#64), (1, 0, 1#64), (1, 0, 0x3FFFFFFFFFFFFFFF#64)],
        let s := due x.1 x.2.1 x.2.2
        (s.buffer 5).hold = some (dueHold x.1 x.2.1 x.2.2) ∧ deadlineReached 0#32 20#32 s.uptime ∧ s.deviceAdmits x.1
          ∧ s.table.queue = [] ∧ ∀ m, s.ofPage x.1 x.2.1 m → s.generationOf m < 0 → s.bufferState m ≠ .held := by
  unfold deadlineReached State.deviceAdmits
  simp only [ofPage_iff]
  decide +kernel

/-- What chooses between the paths at those four. -/
theorem witness_ExpiredBuffersAreSealedAndTaken_paths :
    hasHoles 5#64 32 = true ∧ pageComplete true 64 1#64 = false ∧ pageComplete true 64 0x3FFFFFFFFFFFFFFF#64 = true
      ∧ (due 2 0x100 5#64).pageAttributes 2 0x100 false true ∧ (due 1 0 1#64).pageAttributes 1 0 true false
      ∧ (due 0 0x34 5#64).pageAttributes 0 0x34 false false := by
  refine ⟨by decide +kernel, by decide +kernel, by decide +kernel, ⟨_, rfl, ?_⟩, ⟨_, rfl, ?_⟩, ⟨_, rfl, ?_⟩⟩ <;> decide +kernel

theorem witness_RunsAreMaximalGroups : runsOf 0x8000000000000003#64 64 = [⟨0, 2⟩, ⟨63, 1⟩] := by decide +kernel

/-- Sizes 2 and 64 bound the placing, and the record of spec/01 is accepted (test_example_record_is_accepted). -/
theorem witness_CheckWordFollowsItsRule :
    (Image.erased.placeWord 2).byte 0 = 0xFF#8 ∧ (Image.erased.placeWord 2).byte 2 = 0xFF#8 ∧ validate (record 8 1 0) = none :=
  ⟨by decide +kernel, by decide +kernel, test_example_record_is_accepted.1⟩

/-- A COMMIT buffer of page 20h of device 0 with its run on the bus in the phase `ph`: its memory address byte and its first
run are left to send. -/
def sendingIn (ph : BusPhase) : State :=
  withTransfer (transfer (.run 2) ph (toSend 5)) (put 2 (page 0 0x20 0xF0F#64 (.commit false [⟨0, 4⟩, ⟨8, 4⟩])) live)

/-- That run, its address byte acknowledged. -/
def sending : State := sendingIn .send

/-- The page fields of its buffer. -/
def sendingHold : PageHold := fieldsOf (page 0 0x20 0xF0F#64 (.commit false [⟨0, 4⟩, ⟨8, 4⟩]))

theorem sending_ordered (ph : BusPhase) : (sendingIn ph).ModeOrdered := by cases ph <;> constructor <;> decide +kernel

theorem witness_CompletedRunStartsTheWriteCycle :
    sending.ModeOrdered ∧ sending.carries (.run 2) ∧ (sending.buffer 2).hold = some sendingHold
      ∧ sendingHold.phase = .commit false (⟨0, 4⟩ :: [⟨8, 4⟩]) ∧ sending.isImmediate sendingHold.device = false := by
  refine ⟨sending_ordered _, ?_⟩
  unfold State.carries
  decide +kernel

/-- The layout of spec/01 with window 3, on the IMMEDIATE device, checked. -/
def checkedLay : Layout := { lay with windows := lay.windows.set 3 ((lay.windows.get 3).map fun w => { w with checked := true }) }

/-- A run of the IMMEDIATE device 2 on the bus, the others left as given, with buffers of its page beside it or none. -/
def sendingImmediate (l : Layout) (rest : List Run) (beside : Bool) : State :=
  let s := withTransfer (transfer (.run 2) .close []) (put 2 (page 2 0x100 0xF0F#64 (.commit false (⟨0, 4⟩ :: rest))) live)
  let s := if beside then put 4 (page 2 0x100 0#64 (.clean 0#32)) (put 5 (page 2 0x100 0#64 (.verify 0x10008)) s) else s
  { s with layout := l }

/-- A run left, and none left with the page unchecked, checked, checked beside a CLEAN buffer and a VERIFY read, in FLUSHING. -/
theorem witness_CompletedRunStartsTheWriteCycle_immediate :
    ∀ s : State, s = sendingImmediate lay [⟨8, 4⟩] false ∨ s = sendingImmediate lay [] false ∨ s = sendingImmediate checkedLay [] false
        ∨ s = sendingImmediate checkedLay [] true ∨ s = inMode .flushing (sendingImmediate checkedLay [] false) →
      s.ModeOrdered ∧ s.carries (.run 2) ∧ s.isImmediate 2 = true ∧ s.undisturbed = true ∧ (s.record 2).status = .ready
        ∧ (∃ h run rest, (s.buffer 2).hold = some h ∧ h.phase = .commit false (run :: rest) ∧ h.device = 2 ∧ h.page = 0x100)
        ∧ 2 ∉ s.engine.requests ∧ 2 ∉ s.table.queue := by
  rintro s (rfl | rfl | rfl | rfl | rfl) <;>
    exact ⟨by constructor <;> decide +kernel, ⟨rfl, rfl, rfl, rfl⟩, by decide +kernel, by decide +kernel, by decide +kernel,
      ⟨_, _, _, rfl, rfl, rfl, rfl⟩, by decide +kernel, by decide +kernel⟩

theorem witness_CompletedRunStartsTheWriteCycle_windows :
    (sendingImmediate lay [] false).isChecked 2 0x100 = false ∧ (sendingImmediate checkedLay [] false).isChecked 2 0x100 = true := by
  decide +kernel

/-- R64, R66, R102: an IMMEDIATE device's next run is asked for at once, and with none left the commit ends. -/
theorem test_immediate_runs :
    let runs := after (.writeRunEnd .completed) (sendingImmediate lay [⟨8, 4⟩] false)
    let ends := fun l b => after (.writeRunEnd .completed) (sendingImmediate l [] b)
    (runs.engine.requests = [2] ∧ (fieldsOf (runs.buffer 2)).phase = .commit false [⟨8, 4⟩])
      ∧ (ends lay false).bufferState 2 = .free ∧ (ends checkedLay true).bufferState 2 = .clean
      ∧ (ends checkedLay true).bufferState 4 = .free := by decide +kernel

/-- The refused byte is the first, the last, the first data byte and the one after it. -/
theorem witness_RefusedByteHoldsTheBuffer :
    (sending.record sendingHold.device).status = .ready ∧ sending.undisturbed = true ∧ sending.events.log.length < 8
      ∧ ∀ i, i ∈ [0, 4, 1, 2] →
        i < (sending.device sendingHold.device).addressBytes + (⟨0, 4⟩ : Run).count ∧ sending.byteToCome i :=
  ⟨rfl, rfl, by decide +kernel, fun i h =>
    ⟨(by decide +kernel : ∀ i ∈ [0, 4, 1, 2], i < (sending.device sendingHold.device).addressBytes + 4) i h,
      _, rfl, .inr (.inr ⟨rfl, Nat.zero_le _⟩)⟩⟩

/-- A FILL buffer of page 100h of device 2, positions 1 and 4 written, the first byte of its fill handed over. -/
def filling : State :=
  withTransfer { transfer (.fill 3) .receive [] with received := [1#8] } (put 3 (page 2 0x100 0x12#64 (.fill false)) live)

/-- A FILL buffer of page 0 of device 1 with its fill on the bus. -/
def fillingChecked (ph : BusPhase) (forced : Bool) : State :=
  carrying (.fill 3) ph (put 3 (page 1 0 0x12#64 (.fill forced)) live)

theorem fillings_ordered (ph : BusPhase) (forced : Bool) : (fillingChecked ph forced).ModeOrdered := by
  cases ph <;> cases forced <;> constructor <;> decide +kernel

/-- The run's NACK at its open, and a fill's at its open and at its re-open. -/
theorem witness_BusyDeviceDefersItsCommit :
    ((sendingIn .open).ModeOrdered ∧ (sendingIn .open).carries (.run 2) ∧ (sendingIn .open).addressToCome false)
      ∧ (∀ r : Bool, (fillingChecked .open false).addressToCome r) ∧ (fillingChecked .reopen false).addressToCome true
      ∧ ∀ ph, (fillingChecked ph false).ModeOrdered ∧ (fillingChecked ph false).carries (.fill 3)
        ∧ ((fillingChecked ph false).buffer 3).hold = some (fieldsOf (page 1 0 0x12#64 (.fill false)))
        ∧ (fillingChecked ph false).isImmediate 1 = false ∧ ((fillingChecked ph false).record 1).status = .ready :=
  ⟨⟨sending_ordered _, ⟨rfl, rfl, rfl, rfl⟩, _, rfl, .inl rfl⟩, fun _ => ⟨_, rfl, .inl rfl⟩, ⟨_, rfl, .inr (.inr ⟨.inr rfl, rfl⟩)⟩,
    fun _ => ⟨fillings_ordered _ _, ⟨rfl, rfl, rfl, rfl⟩, rfl, rfl, rfl⟩⟩

/-- A page that matches. -/
def goodPage : List Byte := (Image.erased.placeWord 64).firstBytes 64

/-- The merge-fill of positions 1 to 4, a checked fill that matches, one of a forced buffer, and one that does not match. -/
theorem witness_CompletedFillsMergeOrHold :
    (filling.ModeOrdered ∧ filling.carries (.fill 3) ∧ (filling.buffer 3).hold = some (fieldsOf (page 2 0x100 0x12#64 (.fill false)))
        ∧ filling.isChecked 2 0x100 = false ∧ (filling.record 2).status = .ready ∧ filling.agrees [2#8, 3#8, 4#8] = true
        ∧ (filling.handed ++ [2#8, 3#8, 4#8]).length
            = (writtenSpan 0x12#64 (filling.pageSizeOf (fieldsOf (page 2 0x100 0x12#64 (.fill false))))).count)
      ∧ ∀ forced : Bool, (fillingChecked .receive forced).ModeOrdered ∧ (fillingChecked .receive forced).carries (.fill 3)
        ∧ (fillingChecked .receive forced).isChecked 1 0 = true ∧ ((fillingChecked .receive forced).record 1).status = .ready
        ∧ ((fillingChecked .receive forced).handed ++ goodPage).length = 64 ∧ pageMatches goodPage = true
        ∧ (fillingChecked .receive forced).agrees goodPage = true
        ∧ (fillingChecked .receive forced).agrees (List.replicate 64 0#8) = true
        ∧ ((fillingChecked .receive forced).handed ++ List.replicate 64 0#8).length
            = (fillingChecked .receive forced).pageSizeOf (fieldsOf (page 1 0 0x12#64 (.fill forced)))
        ∧ pageMatches (List.replicate 64 0#8) = false ∧ (fillingChecked .receive forced).undisturbed = true
        ∧ (fillingChecked .receive forced).events.log.length < 8 := by
  unfold State.carries
  refine ⟨⟨by constructor <;> decide +kernel, by decide +kernel⟩, fun forced => ⟨fillings_ordered _ _, ?_⟩⟩
  cases forced <;> decide +kernel

/-- R57, R101: a checked fill that does not match leaves a retry count of 0, the source mask reduced to the written one. -/
theorem test_mismatch_clears_retries :
    let b := page 1 0 0x12#64 (.fill false)
    let s := put 3 { b with hold := some { fieldsOf b with retries := 2, source := 0xFF#64 } } (fillingChecked .receive false)
    (fieldsOf ((after (.fillEnd (.completed (List.replicate 64 0#8))) s).buffer 3)) =
      { fieldsOf b with phase := .held .checkMismatch } := by decide +kernel

/-- The read of both lanes at 10008h whose VERIFY read is buffer 6's, in the phase `ph`. -/
def verifyingIn (ph : BusPhase) : State :=
  carrying (.verify 6) ph (put 6 (page 1 0 0#64 (.verify 0x10008)) (reading 0x10008 .none (some 6) live))

/-- That read while it receives. -/
def verifying : State := verifyingIn .receive

/-- The read record of it. -/
def verifyingRead : ReadRecord :=
  { translation := translationOf (request false 0x10008), values := [], retries := 0, wait := .none, verifyBuffer := some 6 }

set_option maxRecDepth 100000 in
/-- A page that matches, with the read waiting, and one that does not, with the read and with none. -/
theorem witness_VerifyReadsEndCleanOrFree :
    (verifying.carries (.verify 6) ∧ (verifying.buffer 6).hold = some (fieldsOf (page 1 0 0#64 (.verify 0x10008)))
        ∧ (verifying.handed ++ goodPage).length = verifying.pageSizeOf (fieldsOf (page 1 0 0#64 (.verify 0x10008))) ∧ pageMatches goodPage = true
        ∧ goodPage.length ≤ 64 ∧ verifying.agrees goodPage = true ∧ verifying.agrees (List.replicate 64 0xFF#8) = true
        ∧ verifying.control.mode = .running ∧ (∀ m, m ≠ 6 → ¬verifying.ofPage 1 0 m)
        ∧ verifying.reads.stream.isParked = false)
      ∧ (∀ req r, verifying.port = .waiting req (.readPath r) → r.verifyBuffer = some 6 →
          r.translation.device = 1 ∧ r.translation.page = 0
            ∧ ∀ pos ∈ r.translation.positions.drop r.values.length, pos < goodPage.length)
      ∧ verifying.port = .waiting (request false 0x10008) (.readPath verifyingRead)
      ∧ (List.replicate 64 0xFF#8).length = verifying.pageSizeOf (fieldsOf (page 1 0 0#64 (.verify 0x10008)))
      ∧ pageMatches (List.replicate 64 0xFF#8) = false ∧ verifying.control.mode.isReloading = false
      ∧ verifying.events.log.length < 8 ∧ { verifying with port := .idle }.port.isWaiting = false := by
  unfold State.carries
  simp only [ofPage_iff]
  refine ⟨by decide +kernel, ?_, by decide +kernel⟩
  intro req r h
  have e : verifyingRead = r := by
    have g : verifying.port = .waiting (request false 0x10008) (.readPath verifyingRead) := rfl
    rw [g] at h
    injection h with _ h
    injection h
  subst e
  decide +kernel

/-- A refused byte below the retry limit, at either address byte, and an address NACK, of the open or of the re-open. -/
theorem witness_FailedVerifyReadIsMadeAgain :
    (∀ ph, (verifyingIn ph).carries (.verify 6) ∧ (verifyingIn ph).port = .waiting (request false 0x10008) (.readPath verifyingRead)
        ∧ ((verifyingIn ph).record 1).status = .ready ∧ (verifyingIn ph).isImmediate 1 = false
        ∧ ((verifyingIn ph).buffer 6).hold = some (fieldsOf (page 1 0 0#64 (.verify 0x10008)))
        ∧ (verifyingIn ph).control.mode.isReloading = false)
      ∧ verifyingRead.verifyBuffer = some 6 ∧ verifyingRead.translation.device = 1
      ∧ (∀ i, i < (verifying.device 1).addressBytes → (verifyingIn .send).byteToCome i) ∧ (verifying.device 1).addressBytes = 2
      ∧ (fieldsOf (page 1 0 0#64 (.verify 0x10008))).retries < verifying.layout.params.retries
      ∧ (verifyingIn .open).addressToCome false ∧ (verifyingIn .reopen).addressToCome true :=
  ⟨fun _ => ⟨⟨rfl, rfl, rfl, rfl⟩, rfl, rfl, rfl, rfl, rfl⟩, rfl, by decide +kernel,
    fun _ _ => ⟨_, rfl, .inr (.inr ⟨rfl, Nat.zero_le _⟩)⟩, rfl, by decide +kernel, ⟨_, rfl, .inl rfl⟩,
    ⟨_, rfl, .inr (.inr ⟨.inr rfl, rfl⟩)⟩⟩

/-- A probe of device 0 on the bus, 5.0 ms and `k` steps after the cycle start, buffer 2 in CYCLE with the runs left. -/
def probing (k : Fin 10) (runs : List Run) : State :=
  withStatus 0 (cycling false) 10 (atTime 5#32 k (carrying (.probe 0) .address (put 2 (page 0 0x20 0xF0F#64 (.cycle false runs)) live)))

/-- A run left, none left, and no time out of the way. -/
theorem witness_AcknowledgedProbeEndsTheCycle :
    (probing 0 []).carries (.probe 0) ∧ (probing 0 []).undisturbed = true ∧ (probing 0 []).OneCommitEach
      ∧ (probing 0 [⟨8, 4⟩]).carries (.probe 0) ∧ (probing 0 [⟨8, 4⟩]).undisturbed = true ∧ (probing 0 [⟨8, 4⟩]).OneCommitEach
      ∧ ((probing 0 []).buffer 2).hold = some (fieldsOf (page 0 0x20 0xF0F#64 (.cycle false [])))
      ∧ ((probing 0 [⟨8, 4⟩]).buffer 2).hold = some (fieldsOf (page 0 0x20 0xF0F#64 (.cycle false [⟨8, 4⟩])))
      ∧ (probing 0 []).isChecked 0 0x20 = false := by
  unfold State.carries State.OneCommitEach
  decide +kernel

/-- A checked page in CYCLE with no run left, beside a CLEAN buffer of its page and a VERIFY read, and alone; in FLUSHING. -/
theorem witness_AcknowledgedProbeEndsTheCycle_checked :
    let alone := withStatus 1 (cycling false) 3 (carrying (.probe 1) .address (put 2 (page 1 0 0xF#64 (.cycle false [])) live))
    let beside := put 4 (page 1 0 0#64 (.clean 0#32)) (put 5 (page 1 0 0#64 (.verify 0x10008)) alone)
    ∀ s : State, s = alone ∨ s = beside ∨ s = inMode .flushing alone →
      s.carries (.probe 1) ∧ s.undisturbed = true ∧ s.OneCommitEach ∧ (s.buffer 2).hold = some (fieldsOf (page 1 0 0xF#64 (.cycle false [])))
        ∧ s.isChecked 1 0 = true := by
  unfold State.carries State.OneCommitEach
  rintro _ _ s (rfl | rfl | rfl) <;> decide +kernel

/-- R102: after its last run a checked page is CLEAN in one buffer, its source mask kept. -/
theorem test_checked_commit_ends_clean :
    let s := put 4 (page 1 0 0#64 (.clean 0#32)) (withStatus 1 (cycling false) 3 (carrying (.probe 1) .address
      (put 2 (page 1 0 0xF#64 (.cycle false [])) live)))
    let t := after (.probeEnd true) s
    t.bufferState 2 = .clean ∧ t.bufferState 4 = .free ∧ (fieldsOf (t.buffer 2)).source = 0xF#64 := by decide +kernel

/-- At the limit to the step, and one step past it; and the close of an acknowledged probe. -/
theorem witness_NackedProbeTestsTheCycleLimit :
    ((carrying (.probe 0) .close (probing 0 [])).carries (.probe 0) ∧ (carrying (.probe 0) .close (probing 0 [])).phase = some .close
        ∧ (carrying (.probe 0) .close (probing 0 [])).undisturbed = true
        ∧ (carrying (.probe 0) .close (probing 0 [])).OneCommitEach)
      ∧ (∀ k : Fin 10, (probing k []).carries (.probe 0) ∧ (probing k []).undisturbed = true ∧ (probing k []).phase = some .address)
      ∧ (probing 0 []).OneCommitEach ∧ (probing 1 []).OneCommitEach
      ∧ (∀ k : Fin 10, (probing k []).record 0 = { status := .cycling { ms := 0#32, frac := 0 } (timer false), nacks := 10 })
      ∧ ¬((probing 0 []).device 0).cycleLimit * 10 < ({ ms := 0#32, frac := 0 } : Stamp).elapsed (probing 0 []).now
      ∧ ((probing 1 []).device 0).cycleLimit * 10 < ({ ms := 0#32, frac := 0 } : Stamp).elapsed (probing 1 []).now
      ∧ (probing 1 []).events.log.length < 8 ∧ ((probing 1 []).buffer 2).hold = some (fieldsOf (page 0 0x20 0xF0F#64 (.cycle false [])))
      ∧ ((probing 1 []).bufferState 2).uncommitted = true := by
  unfold State.carries State.OneCommitEach
  exact ⟨by decide +kernel, by decide +kernel, by decide +kernel, by decide +kernel, by decide +kernel, by decide +kernel,
    by decide +kernel, by decide +kernel, by decide +kernel, by decide +kernel⟩

/-- Requests of every class; `promoted` are the two pass counts. -/
def asking (hostReads : List HostReadRequest) (probe : Bool) (promoted : Nat × Nat) (s : State) : State :=
  let t := put 4 (page 0 0x20 1#64 (.commit false [⟨0, 1⟩])) (if probe then withStatus 1 (cycling true) 0 s else s)
  { t with
    engine := { t.engine with requests := [4] }
    slot := { t.slot with state := .waiting sensorSteps 1 0 0 }
    bus := { t.bus with hostReads := hostReads, passCommit := promoted.1, passDirect := promoted.2 } }

/-- `live` with SDA held low by another party. -/
def heldLow : State := { live with bus := { live.bus with status := .foreign, sda := false, idleHigh := none, heldData := some 0#32 } }

/-- The first of the order is each class in turn, and a promoted one; the bus is FREE, or FOREIGN with SDA held low, for
1 ms to the step, for 1 ms within the step, and a step less. -/
theorem witness_GrantsGoToTheFirstInOrder :
    (asking [.streamOpen 0 0x340, .recordRead] true (3, 3) live).firstInOrder (.hostRead (.streamOpen 0 0x340))
      ∧ (asking [] true (0, 0) live).firstInOrder .probe ∧ (asking [] false (0, 0) live).firstInOrder .commit
      ∧ (asking [.recordRead] true (4, 4) live).firstInOrder .commit ∧ (asking [.recordRead] true (3, 4) live).firstInOrder .direct
      ∧ (asking [] false (0, 0) heldLow).firstInOrder .commit
      ∧ (asking [] false (0, 0) live).ModeOrdered ∧ (asking [] false (0, 0) live).reads.stream.isParked = false
      ∧ (asking [] false (0, 0) live).bus.status = .free ∧ (asking [] false (0, 0) heldLow).ModeOrdered
      ∧ (asking [] false (0, 0) heldLow).bus.status = .foreign ∧ (asking [] false (0, 0) heldLow).bus.heldData = some 0#32
      ∧ (atTime 1#32 0 heldLow).comesDue (0#32 + 20000#32) 20000 ∧ (atTime 1#32 0 heldLow).comesDue (1999#32 + 20000#32) 20000
      ∧ ¬(atTime 0#32 9 heldLow).comesDue (0#32 + 20000#32) 20000 := by
  unfold State.comesDue
  simp only [State.firstInOrder]
  refine ⟨by decide +kernel, by decide +kernel, by decide +kernel, by decide +kernel, by decide +kernel, by decide +kernel,
    ?_, rfl, rfl, ?_, rfl, rfl, by decide +kernel⟩ <;> constructor <;> decide +kernel

/-- A stream at the last offset of its block, its transaction in the phase `ph`, and the read of one lane that it serves. -/
def streamingIn (ph : BusPhase) (st : StreamPos → Stream) (a : Nat) (reader : Bool) : State :=
  let t := translationOf (latchedRequest false (BitVec.ofNat 19 (a / 2)) false true 0#16)
  let s := carrying .stream ph live
  { s with
    reads := { s.reads with stream := st { device := t.device, next := t.pageStart + t.positions.headD 0, last := t.lastOffset } }
    port := if reader then .waiting (latchedRequest false (BitVec.ofNat 19 (a / 2)) false true 0#16) (.readPath
      { translation := t, values := [], retries := 3, wait := .none, verifyBuffer := none }) else .idle }

/-- A stream that receives. -/
def streaming (st : StreamPos → Stream) (a : Nat) (reader : Bool) : State := streamingIn .receive st a reader

/-- The read record of it. -/
def streamingRead (a : Nat) : ReadRecord :=
  { translation := translationOf (latchedRequest false (BitVec.ofNat 19 (a / 2)) false true 0#16), values := [], retries := 3
    wait := .none, verifyBuffer := none }

theorem streams_serve (ph : BusPhase) (st : StreamPos → Stream) (a : Nat) (p : StreamPos)
    (h : (streamingRead a).translation.checked = false ∧ (streamingRead a).translation.device = p.device) :
    (streamingIn ph st a true).streamServes p (latchedRequest false (BitVec.ofNat 19 (a / 2)) false true 0#16) (streamingRead a) :=
  ⟨rfl, rfl, rfl, h.1, h.2⟩

theorem streams_alone (ph : BusPhase) (st : StreamPos → Stream) (a : Nat) : (streamingIn ph st a false).noReadWaits := by
  intro req r h
  exact nomatch (show Access.idle = _ from h)

/-- A CYCLED device with a read and with none, its NACK at the open and at the re-open; an IMMEDIATE device whose count comes
to the retry limit at the open, and to 1 at the re-open. -/
theorem witness_StreamOpensRunOrMeetANack :
    (∀ ph reader, (streamingIn ph .opening 0x3FE reader).reads.stream = .opening ⟨0, 0x3FF, 0x3FF⟩
        ∧ (streamingIn ph .opening 0x3FE reader).carries .stream ∧ (streamingIn ph .opening 0x3FE reader).control.mode.isReloading = false
        ∧ (streamingIn ph .opening 0x3FE reader).isImmediate 0 = false
        ∧ ((streamingIn ph .opening 0x3FE reader).record 0).status = .ready
        ∧ (streamingIn ph .opening 0x3FE true).streamServes ⟨0, 0x3FF, 0x3FF⟩ (latchedRequest false 0x1FF#19 false true 0#16)
            (streamingRead 0x3FE)
        ∧ (streamingIn ph .opening 0x3FE false).noReadWaits)
      ∧ (streamingIn .open .opening 0x3FE true).addressToCome false ∧ (streamingIn .reopen .opening 0x3FE true).addressToCome true
      ∧ (∀ ph, (streamingIn ph .opening 0x8000 true).reads.stream = .opening ⟨2, 1, 0x7FFF⟩
        ∧ (streamingIn ph .opening 0x8000 true).streamServes ⟨2, 1, 0x7FFF⟩ (latchedRequest false 0x4000#19 false true 0#16)
            (streamingRead 0x8000)
        ∧ (streamingIn ph .opening 0x8000 true).isImmediate 2 = true ∧ (streamingIn ph .opening 0x8000 true).carries .stream)
      ∧ (∀ reopened : Bool, (streamingIn (if reopened then .reopen else .open) .opening 0x8000 true).addressToCome reopened
        ∧ min 255 ((if reopened then 0 else ((withStatus 2 .ready 2 (streamingIn .open .opening 0x8000 true)).record 2).nacks) + 1)
            ≤ (streamingIn .open .opening 0x8000 true).layout.params.retries) := by
  refine ⟨fun ph reader => ⟨rfl, ⟨rfl, rfl, rfl, rfl⟩, rfl, by cases reader <;> cases ph <;> decide +kernel, rfl,
      streams_serve _ _ _ _ (by decide +kernel), streams_alone _ _ _⟩, ⟨_, rfl, .inl rfl⟩,
    ⟨_, rfl, .inr (.inr ⟨.inr rfl, rfl⟩)⟩,
    fun ph => ⟨by cases ph <;> decide +kernel, streams_serve _ _ _ _ (by decide +kernel), by cases ph <;> decide +kernel, ⟨rfl, rfl, rfl, rfl⟩⟩, ?_⟩
  intro r
  cases r
  · exact ⟨⟨_, rfl, .inl rfl⟩, by decide +kernel⟩
  · exact ⟨⟨_, rfl, .inr (.inr ⟨.inr rfl, rfl⟩)⟩, by decide +kernel⟩

/-- R88, R171: a stream that opens after a reload has emptied its queue closes, with its demand or without it. -/
theorem test_emptied_stream_closes :
    let s := streamingIn .address .opening 0x3FE false
    let t := after .streamOpenAddressed { s with reads := { s.reads with dropsAhead := true } }
    t.reads.stream = .closing ⟨0, 0x3FF, 0x3FF⟩ ∧ t.reads.dropsAhead = true := by decide +kernel

/-- A read at its retry limit, and one below it: the other conditions are those of the same state. -/
theorem witness_RefusedAddressBytesAreRetried :
    (streamingIn .send .opening 0x3FE true).carries .stream ∧ (0 < ((streamingIn .send .opening 0x3FE true).device 0).addressBytes)
      ∧ (streamingIn .send .opening 0x3FE true).byteToCome 0
      ∧ (streamingIn .send .opening 0x3FE true).layout.params.retries ≤ (streamingRead 0x3FE).retries
      ∧ (∃ s : State, ∃ r : ReadRecord, s.reads.stream = .opening ⟨0, 0x3FF, 0x3FF⟩
        ∧ s.streamServes ⟨0, 0x3FF, 0x3FF⟩ (latchedRequest false 0x1FF#19 false true 0#16) r
        ∧ r.retries < s.layout.params.retries ∧ r.translation.positions.drop r.values.length = [15]
        ∧ s.heldNowhere 0 r.translation.page 15 ∧ s.reads.ahead.holds 0 (r.translation.pageStart + 15) = false
        ∧ (s.record 0).status = .ready) := by
  refine ⟨⟨rfl, rfl, rfl, rfl⟩, by decide +kernel, ⟨_, rfl, .inr (.inr ⟨rfl, Nat.zero_le _⟩)⟩, by decide +kernel,
    { streamingIn .send .opening 0x3FE true with
      port := .waiting (latchedRequest false 0x1FF#19 false true 0#16) (.readPath { streamingRead 0x3FE with retries := 2 }) },
    { streamingRead 0x3FE with retries := 2 },
    by decide +kernel, ⟨rfl, rfl, rfl, by decide +kernel, by decide +kernel⟩, by decide +kernel, by decide +kernel,
    heldNowhere_of _ _ _ _ (by decide +kernel), by decide +kernel, by decide +kernel⟩

/-- A running stream with its read, one with none, a closing one, and a parked one at its deadline. -/
theorem witness_StreamBytesServeReadsAndTheQueue :
    ((streaming .running 0x3FE true).carries .stream ∧ (streaming .running 0x3FE true).reads.stream = .running ⟨0, 0x3FF, 0x3FF⟩
        ∧ (streaming .running 0x3FE true).streamServes ⟨0, 0x3FF, 0x3FF⟩ (latchedRequest false 0x1FF#19 false true 0#16) (streamingRead 0x3FE)
        ∧ (streamingRead 0x3FE).translation.positions.drop (streamingRead 0x3FE).values.length = [15])
      ∧ (∀ v st a reader, (streaming st a reader).agrees [v] = true)
      ∧ ((streaming .running 0x3FC false).carries .stream ∧ (streaming .running 0x3FC false).reads.stream = .running ⟨0, 0x3FD, 0x3FF⟩
        ∧ (streaming .running 0x3FC false).noReadWaits)
      ∧ ((streaming .closing 0x3FC false).carries .stream ∧ (streaming .closing 0x3FC false).reads.stream = .closing ⟨0, 0x3FD, 0x3FF⟩
        ∧ (streaming .closing 0x3FC false).noReadWaits)
      ∧ ∃ p deadline, (atTime 1#32 0 parked).reads.stream = .parked p deadline
        ∧ deadline.period = deadline.since.elapsed (atTime 1#32 0 parked).now := by
  unfold State.carries
  exact ⟨⟨by decide +kernel, by decide +kernel, streams_serve _ _ _ _ (by decide +kernel), by decide +kernel⟩,
    fun _ _ _ _ => agrees_of_no_wire _ _ rfl, ⟨by decide +kernel, by decide +kernel, streams_alone _ _ _⟩, ⟨by decide +kernel, by decide +kernel, streams_alone _ _ _⟩,
    _, _, rfl, by decide +kernel⟩

/-- `live` with the bus record changed. -/
def onLines (f : Bus → Bus) : State := { live with bus := f live.bus }

/-- The close of a clear made for a grant has been sent, and the transaction has not opened. -/
def cleared (s : State) : State :=
  { s with bus := { (carrying .stream .open s).bus with status := .clearing, freeAt := some 94#32 } }

/-- R105, R121: in that time the lines are another party's: a fall and a rise of SDA are seen, and the open comes in the end. -/
theorem test_lines_after_a_clear :
    let s := after (.foreignOpen .sda) (cleared live)
    let t := after .foreignClose s
    s.bus.sda = false ∧ s.bus.idleHigh = none ∧ t.bus.sda = true ∧ t.bus.idleHigh = some ⟨0#32, ⟨0#32, 0⟩⟩
      ∧ t.bus.freeAt = some 94#32 ∧ (after .freeDeadline t).bus.status = .owned := by decide +kernel

/-- Both lines high, SDA low, SCL low, with a transaction and without, after a clear made for a grant, and the awaited time in FOREIGN: after a foreign close
it comes within the step, and with both lines high 100 µs later, not before. -/
theorem witness_OtherPartiesMoveTheLines :
    (live.bus.scl = true ∧ live.bus.sda = true ∧ live.bus.transaction = none ∧ live.bus.clear = none ∧ live.bus.wire = none
        ∧ live.phase ≠ some .park)
      ∧ (heldLow.bus.scl = true ∧ heldLow.bus.sda = false ∧ heldLow.bus.transaction = none ∧ heldLow.bus.clear = none
        ∧ heldLow.bus.wire = none)
      ∧ ((cleared heldLow).bus.wire = none ∧ (cleared live).bus.wire = none ∧ (cleared heldLow).bus.status = .clearing ∧ (cleared heldLow).bus.transaction ≠ none ∧ (cleared heldLow).bus.clear = none
        ∧ (cleared heldLow).bus.sda = false ∧ (cleared live).bus.scl = true ∧ (cleared live).bus.sda = true)
      ∧ ((onLines fun b => { b with scl := false, lowStart := some live.now }).bus.lowStart ≠ none
        ∧ (onLines fun b => { b with scl := false, lowStart := some live.now }).bus.transaction = none)
      ∧ ((carrying .stream .receive (onLines fun b => { b with scl := false, lowStart := some live.now })).bus.lowStart ≠ none
        ∧ (carrying .stream .receive (onLines fun b => { b with scl := false, lowStart := some live.now })).bus.transaction ≠ none)
      ∧ ∀ close : Option Word, close = none ∨ close = some 94#32 →
        let s := onLines fun b => { b with status := .foreign, idleHigh := some ⟨0#32, ⟨0#32, 0⟩⟩, freeAt := close }
        s.bus.status = .foreign ∧ s.bus.idleHigh = some ⟨0#32, ⟨0#32, 0⟩⟩
          ∧ (s.comesDue (close.getD (0#32 + 2000#32)) 2000 ↔ close = some 94#32)
          ∧ (atTime 0#32 1 s).comesDue (close.getD (0#32 + 2000#32)) 2000 := by
  unfold State.comesDue
  refine ⟨by decide +kernel, by decide +kernel, by decide +kernel, by decide +kernel, by decide +kernel, ?_⟩
  rintro _ (rfl | rfl) <;> decide +kernel

/-- A run on the bus with SCL held low for the stretch limit of 10 ms, to the step. -/
def stretched (s : State) : State := atTime 10#32 0 { s with bus := { s.bus with scl := false, lowStart := some { ms := 0#32, frac := 0 } } }

/-- The sensor sequence in step `k`, its out area holding the register 90h, with `left` to send. -/
def sensorOnBus (k : Nat) (retries : Nat) (ph : BusPhase) (left : List Byte) (abort : Bool) : State :=
  let s := withTransfer (transfer .sequence ph left) live
  { s with slot := { s.slot with
      state := .running sensorSteps 1 0 retries k (if k ≤ 2 then 0 else 1) abort, outArea := s.slot.outArea.set 0 0x90#8 } }

/-- SCL falls in a half bit, begun or to begin, and in none; SDA moves while the bridge holds SCL low; and a stretched half bit. -/
theorem witness_OtherPartiesMoveTheLines_bits :
    let s := inBit (.clockLow [true]) (runOnBus .send [0x81#8] true)
    (s.bus.scl = true ∧ s.phase ≠ some .park ∧ s.inHalf (.clockLow [true]) 0#32)
      ∧ (runOnBus .open [] true).inHalf .open 0#32 ∧ (∀ h since, ¬live.inHalf h since)
      ∧ s.drives .scl = true ∧ (∃ w, (after (.foreignOpen .scl) s).bus.wire = some w)
      ∧ (after (.foreignOpen .scl) s).bus.lowStart ≠ none := by
  refine ⟨⟨by decide +kernel, by decide +kernel, .inl rfl⟩, .inr ⟨rfl, rfl, .inr ⟨rfl, rfl, _, rfl, rfl⟩⟩, ?_,
    by decide +kernel, ⟨_, rfl⟩, by decide +kernel⟩
  rintro h since (a | ⟨-, -, ⟨a, -⟩ | ⟨-, a, -⟩⟩)
  · exact absurd a nofun
  · exact a rfl
  · exact absurd a (by decide)

/-- No half bit, with no transaction and in a park; a half bit begun and to begin, of each phase and of a clear; and one that
ends at its time to the step, not before, and that waits for SCL. -/
theorem witness_HalfBitsFollowEachOther :
    ((∀ h since, ¬live.inHalf h since) ∧ (∀ h since, ¬parked.inHalf h since) ∧ parked.phase = some .park)
      ∧ (∀ h s, (inBit h s).inHalf h s.bus.timer)
      ∧ (∀ x ∈ [(BusPhase.open, HalfBit.open), (.reopen, .reopenLow), (.address, .clockLow []), (.send, .clockLow []),
          (.receive, .clockLow []), (.close, .closeLow none)], (runOnBus x.1 [] true).inHalf x.2 0#32)
      ∧ clearOfStuck.inHalf (.pulseLow 1) 0#32
      ∧ (∀ h, (inBit h live).bus.lowStart = none ∧ (inBit h live).layout.params.rate.halfTime ≤ min 100 (inBit h live).stepsLeft
        ∧ min 99 (inBit h live).stepsLeft < (inBit h live).layout.params.rate.halfTime)
      ∧ ∀ h, (inBit h (stretched live)).bus.lowStart ≠ none := by
  refine ⟨⟨?_, ?_, rfl⟩, fun _ _ => .inl rfl, ?_, .inr ⟨rfl, rfl, .inl ⟨nofun, rfl⟩⟩, fun _ => ?_, fun _ => nofun⟩
  · rintro h since (a | ⟨-, -, ⟨a, -⟩ | ⟨-, a, -⟩⟩)
    · exact absurd a nofun
    · exact a rfl
    · exact absurd a (by decide)
  · rintro h since (a | ⟨-, -, ⟨a, -⟩ | ⟨-, -, x, a, b⟩⟩)
    · exact absurd a nofun
    · exact a rfl
    · cases a
      exact b
  · intro x h
    refine .inr ⟨rfl, rfl, .inr ⟨rfl, rfl, _, rfl, ?_⟩⟩
    simp only [List.mem_cons, List.not_mem_nil, or_false] at h
    rcases h with rfl | rfl | rfl | rfl | rfl | rfl <;> rfl
  · exact ⟨rfl, (by decide +kernel : live.layout.params.rate.halfTime ≤ min 100 live.stepsLeft),
      (by decide +kernel : min 99 live.stepsLeft < live.layout.params.rate.halfTime)⟩

/-- The clocks: a bit lost and not, sent and the NACK of a byte received; a ninth clock of each job, acknowledged and refused,
SDA being the level of its ninth bit. -/
theorem witness_HalfBitsFollowEachOther_clocks :
    (∀ sda : Bool, (runOnBus .send [0x81#8] sda).drives .sda = false ∧ (runOnBus .send [0x81#8] sda).bus.status = .owned
        ∧ (inBit (.clockHigh ((bitsOf 0x81#8).take 7)) (runOnBus .send [0x81#8] sda)).drives .sda = false
        ∧ (inBit (.clockHigh ((bitsOf 0x81#8).take 7)) (runOnBus .send [0x81#8] sda)).bus.sda = sda
        ∧ (inBit (.clockHigh (bitsOf 0x81#8)) (runOnBus .send [0x81#8] sda)).level .sda = sda
        ∧ (inBit (.clockHigh (bitsOf 0xA0#8)) (runOnBus .address [0x81#8] sda)).level .sda = sda)
      ∧ (inBit (.clockHigh (bitsOf 1#8)) (receiving true)).drives .sda = false
      ∧ (inBit (.clockHigh (bitsOf 1#8)) (receiving false)).drives .sda = true
      ∧ (∀ last, (receiving last).slot.state
        = .running [.open 0x48#7 true, .receive 2 false, .receive 1 true, .close] 0 1 0 2 0 last)
      ∧ (∀ x, (withTransfer x live).bus.transaction = some x ∧ (withTransfer x live).bus.status = .owned
        ∧ (withTransfer x live).bus.lowStart = none)
      ∧ (sensorOnBus 2 0 .send [0x90#8] false).slot.state = .running sensorSteps 1 0 0 2 0 false
      ∧ sensorSteps[2 - 1]? = some (.send 1 true) ∧ (runOnBus .send [0x81#8] true).sendsByte 0
      ∧ (sensorOnBus 2 0 .send [0x90#8] false).sendsByte 0 := by
  refine ⟨by decide +kernel, by decide +kernel, by decide +kernel, fun _ => rfl, fun _ => ⟨rfl, rfl, rfl⟩, rfl, rfl, .inl ⟨rfl, ?_⟩,
    .inr ⟨_, _, _, _, _, _, _, _, _, rfl, rfl, rfl⟩⟩
  intro _ _ _ _ _ _ _ _ _ h
  cases h

/-- The closes: of a clear, of a transaction already reported and of one that its close reports, after no refused byte and after
one, with SDA high at their end and low; a pulse before the ninth and the ninth, SDA high and low. -/
theorem witness_HalfBitsFollowEachOther_ends :
    (∀ sda : Bool, (inBit (.closeHigh none) (onLines fun b => { b with status := .owned, sda := sda })).bus.clear = none
        ∧ (inBit (.closeHigh none) (onLines fun b => { b with status := .owned, sda := sda })).bus.transaction = none
        ∧ (inBit (.closeHigh none) (onLines fun b => { b with status := .owned, sda := sda })).bus.sda = sda)
      ∧ (∀ r ∈ [none, some (Refused.address false), some (.byte 0)], ∀ sda : Bool,
        let s := runOnBus (if r = none then .close else if r = some (.byte 0) then .send else .address) [0x81#8] sda
        let ended := s.withBus { s.bus with timer := s.bus.timer + 100#32, wire := none }
        (inBit (.closeHigh r) s).bus.clear = none ∧ s.job = some (.run 2)
          ∧ (s.closeCommand (.run 2) r).any (fun c => isNext (exec c ended) && (after c ended).job == none) = true)
      ∧ (inBit (.closeHigh none) { clearOfStuck with bus := { clearOfStuck.bus with sda := true } }).bus.sda = true
      ∧ (∀ k, (inBit (.pulseHigh k) clearOfStuck).bus.sda = false) ∧ clearOfStuck.bus.clear ≠ none := by
  refine ⟨by decide +kernel, ?_, by decide +kernel, fun _ => rfl, nofun⟩
  intro r h
  simp only [List.mem_cons, List.not_mem_nil, or_false] at h
  rcases h with rfl | rfl | rfl <;> decide +kernel

/-- The free deadline in its three outcomes and a step before it, the rise after a timeout, the three clears, with SCL held
low and not, and a check and a watch, at its time and a step before it. -/
theorem witness_ClosesClearsAndChecksEnd :
    (∀ low : Bool, ∃ s : State, s.bus.freeAt = some 94#32 ∧ s.comesDue 94#32 2000 ∧ s.bus.status = .owned
        ∧ s.bus.transaction = none ∧ s.bus.scl = !low ∧ s.bus.sda = true)
      ∧ (∃ s : State, s.bus.freeAt = some 94#32 ∧ s.comesDue 94#32 2000 ∧ s.bus.status = .clearing ∧ s.bus.transaction ≠ none)
      ∧ (∃ s : State, s.bus.freeAt = some 2000#32 ∧ ¬s.comesDue 2000#32 2000)
      ∧ (∃ s : State, s.bus.status = .owned ∧ s.bus.awaitRise = true)
      ∧ (∀ c : ClearCause, ∃ s : State, s.bus.clear = some c ∧ s.bus.lowStart = none)
      ∧ (stretched live).bus.lowStart ≠ none
      ∧ (∃ s : State, ∃ next, s.bus.status = .stuck ∧ s.bus.nextCheck = some next ∧ next.period = next.since.elapsed s.now
        ∧ s.bus.clear = none ∧ s.bus.watch = none)
      ∧ ∃ s : State, s.bus.status = .stuck ∧ s.bus.watch = some 0#32 ∧ ¬s.comesDue (0#32 + 2000#32) 2000
        ∧ (atTime 0#32 1 s).comesDue (0#32 + 2000#32) 2000 := by
  unfold State.comesDue
  exact ⟨fun low => ⟨onLines fun b => { b with status := .owned, scl := !low, freeAt := some 94#32 }, rfl, by cases low <;> decide +kernel,
      rfl, rfl, rfl, rfl⟩,
    ⟨onLines fun b => { (carrying .stream .open live).bus with status := .clearing, freeAt := some 94#32 }, rfl, by decide +kernel,
      rfl, by decide +kernel⟩,
    ⟨onLines fun b => { b with freeAt := some 2000#32 }, rfl, by decide +kernel⟩,
    ⟨onLines fun b => { b with status := .owned, awaitRise := true }, rfl, rfl⟩,
    fun c => ⟨onLines fun b => { b with clear := some c }, rfl, rfl⟩, by decide +kernel,
    ⟨atTime 50#32 0 (onLines fun b => { b with status := .stuck, nextCheck := some { since := live.now, period := 500 } }), _,
      rfl, rfl, by decide +kernel, rfl, rfl⟩,
    ⟨onLines fun b => { b with status := .stuck, watch := some 0#32 }, rfl, rfl, by decide +kernel, by decide +kernel⟩⟩

/-- The close that is still sent at its free deadline, SCL held low and not; a clear whose pulses have not found SDA high, before
the first one and in it, and one that has. -/
theorem witness_ClosesClearsAndChecksEnd_halves :
    (∀ low : Option Stamp, ∃ s : State, ∃ w, s.bus.freeAt = some 94#32 ∧ s.comesDue 94#32 2000 ∧ s.bus.status = .owned
        ∧ s.bus.transaction = none ∧ s.bus.wire = some w ∧ s.bus.lowStart = low)
      ∧ clearOfStuck.stillHeld ∧ (inBit (.pulseLow 9) clearOfStuck).stillHeld
      ∧ ¬(inBit (.closeLow none) clearOfStuck).stillHeld
      ∧ clearOfStuck.bus.clear = some .stuckCheck ∧ clearOfStuck.bus.lowStart = none := by
  unfold State.comesDue
  refine ⟨fun low => ⟨onLines fun b => { b with status := .owned, freeAt := some 94#32, lowStart := low, wire := some ⟨.closeHigh none, 0#32⟩ },
    _, rfl, (by unfold State.comesDue; decide +kernel : live.comesDue 94#32 2000), rfl, rfl, rfl, rfl⟩, ⟨rfl, nofun⟩, ⟨rfl, ?_⟩, ?_, rfl, rfl⟩
  · rintro w ⟨⟩
    exact ⟨9, .inl rfl⟩
  · rintro ⟨-, h⟩
    obtain ⟨k, h | h⟩ := h _ rfl <;> cases h

/-- R121: a clear of the check fails while SDA is held, and not once a pulse has found it high. -/
theorem test_clear_fails_while_held :
    (after (.busClearEnd false) (inBit (.pulseHigh 3) clearOfStuck)).bus.clear = none
      ∧ (after (.busClearEnd false) (inBit (.closeLow none) clearOfStuck)).bus.clear = some .stuckCheck := by decide +kernel

/-- A buffer whose retry count stands at the limit. -/
def exhausted : State :=
  put 2 { sending.buffer 2 with hold := some { sendingHold with retries := 3 } } sending

/-- A loss and a timeout of a run, below the retry limit and at it; a fill; a run that has only 00h left to send. -/
theorem witness_CutOffCommitsAreRetried :
    (sending.ModeOrdered ∧ (stretched sending).ModeOrdered ∧ exhausted.ModeOrdered ∧ filling.ModeOrdered)
      ∧ sending.canBeCut .lost ∧ (stretched sending).canBeCut .timeout ∧ (stretched (sendingIn .close)).canBeCut .timeout ∧ exhausted.canBeCut .lost
      ∧ (stretched exhausted).canBeCut .timeout ∧ sending.hasBitToRelease ∧ exhausted.hasBitToRelease
      ∧ (filling.canBeCut .lost ∧ filling.job = some (.fill 3))
      ∧ (withTransfer (transfer (.run 2) .send [0#8]) sending).canBeCut .lost
      ∧ sending.job = some (.run 2) ∧ sendingHold.retries < sending.layout.params.retries
      ∧ (sending.record sendingHold.device).status = .ready ∧ (filling.record 2).status = .ready
      ∧ (fieldsOf (exhausted.buffer 2)).retries = exhausted.layout.params.retries
      ∧ (exhausted.bufferState 2).uncommitted = true ∧ exhausted.undisturbed = true ∧ exhausted.events.log.length < 8
      ∧ (∀ bytes, sending.agrees bytes = true ∧ (stretched sending).agrees bytes = true ∧ exhausted.agrees bytes = true
        ∧ (stretched exhausted).agrees bytes = true ∧ filling.agrees bytes = true) :=
  ⟨⟨sending_ordered _, by constructor <;> decide +kernel, by constructor <;> decide +kernel, by constructor <;> decide +kernel⟩,
    ⟨rfl, by decide +kernel, rfl, by decide +kernel⟩, ⟨rfl, by decide +kernel, _, rfl, by decide +kernel⟩,
    ⟨rfl, by decide +kernel, _, rfl, by decide +kernel⟩, ⟨rfl, by decide +kernel, rfl, by decide +kernel⟩, ⟨rfl, by decide +kernel, _, rfl, by decide +kernel⟩,
    ⟨_, rfl, .inr (.inr (.inr ⟨rfl, 1#8, by decide, by decide⟩))⟩, ⟨_, rfl, .inr (.inr (.inr ⟨rfl, 1#8, by decide, by decide⟩))⟩,
    ⟨⟨rfl, by decide +kernel, rfl, by decide +kernel⟩, rfl⟩, ⟨rfl, by decide +kernel, rfl, by decide +kernel⟩, by decide +kernel,
    by decide +kernel, by decide +kernel, by decide +kernel, by decide +kernel, by decide +kernel, by decide +kernel,
    by decide +kernel, fun _ => ⟨agrees_of_no_wire _ _ rfl, agrees_of_no_wire _ _ rfl,
      agrees_of_no_wire _ _ rfl, agrees_of_no_wire _ _ rfl, agrees_of_no_wire _ _ rfl⟩⟩

/-- The sensor sequence cut off in its SEND step, by a loss below and at the retry limit and by a timeout. -/
theorem witness_CutOffSequencesAreRerunOrFinish :
    let s := sensorOnBus 2 0 .send [0x90#8] false
    let last := sensorOnBus 2 3 .send [0x90#8] false
    (s.ModeOrdered ∧ last.ModeOrdered ∧ (stretched s).ModeOrdered)
      ∧ s.canBeCut .lost ∧ last.canBeCut .lost ∧ (stretched s).canBeCut .timeout ∧ s.phase ≠ some .close ∧ last.phase ≠ some .close ∧ s.job = some .sequence
      ∧ s.slot.state = .running sensorSteps 1 0 0 2 0 false ∧ last.slot.state = .running sensorSteps 1 0 3 2 0 false
      ∧ sensorSteps[2 - 1]? = some (.send 1 true) ∧ 1 ≤ 0 + s.unsent ∧ s.slot.outArea[0 + 0]? = some 0x90#8
      ∧ 0 < s.layout.params.retries ∧ last.layout.params.retries = 3 :=
  ⟨⟨by constructor <;> decide +kernel, by constructor <;> decide +kernel, by constructor <;> decide +kernel⟩,
    ⟨rfl, by decide +kernel, rfl, by decide +kernel⟩, ⟨rfl, by decide +kernel, rfl, by decide +kernel⟩,
    ⟨rfl, by decide +kernel, _, rfl, by decide +kernel⟩, by decide +kernel⟩

/-- The sensor sequence with SCL held too long in the close of an abort, and after a refused byte of step 2 or address of step 1. -/
theorem witness_CutOffSequencesAreRerunOrFinish_closes :
    let aborting := stretched (sensorOnBus 2 0 .close [] true)
    let byte := stretched (inBit (.closeHigh (some (.byte 0))) (sensorOnBus 2 0 .send [0x90#8] false))
    let address := stretched (inBit (.closeLow (some (.address false))) (sensorOnBus 1 0 .address [] false))
    (aborting.canBeCut .timeout ∧ byte.canBeCut .timeout ∧ address.canBeCut .timeout)
      ∧ (aborting.ModeOrdered ∧ byte.ModeOrdered ∧ address.ModeOrdered)
      ∧ (aborting.slot.state = .running sensorSteps 1 0 0 2 0 true ∧ byte.slot.state = .running sensorSteps 1 0 0 2 0 false
        ∧ address.slot.state = .running sensorSteps 1 0 0 1 0 false)
      ∧ byte.bus.refused = some (.byte 0) ∧ stepAt sensorSteps 2 = some (.send 1 true) ∧ 1 ≤ 0 + byte.unsent
      ∧ address.bus.refused = some (.address false) ∧ stepAt sensorSteps 1 = some (.open 0x48#7 false) := by
  refine ⟨⟨⟨rfl, by decide +kernel, _, rfl, by decide +kernel⟩, ⟨rfl, by decide +kernel, _, rfl, by decide +kernel⟩,
    ⟨rfl, by decide +kernel, _, rfl, by decide +kernel⟩⟩, ⟨?_, ?_, ?_⟩, by decide +kernel⟩ <;> constructor <;> decide +kernel

/-- R134: a stretch timeout in the close after a refused byte ends the sequence in that step, with that byte (log entry 48). -/
theorem test_refused_close_stretched :
    let byte := stretched (inBit (.closeHigh (some (.byte 0))) (sensorOnBus 2 0 .send [0x90#8] false))
    let address := stretched (inBit (.closeLow (some (.address false))) (sensorOnBus 1 0 .address [] false))
    let ended := fun s => (after (.stretchTimeout { addressed := true, sent := 0, received := [] }) s).slot.state
    ended byte = SlotState.finishedAs sensorSteps 1 0 byte.slot.inArea .timeout 2 (some 0)
      ∧ ended address = SlotState.finishedAs sensorSteps 1 0 address.slot.inArea .timeout 1 none := by decide +kernel

/-- R120: the close of a VERIFY read that has received its page can be stretched too far. -/
theorem test_verify_close_stretched :
    let s := withTransfer { transfer (.verify 6) .close [] with received := List.replicate 64 0#8, remaining := some 0 }
      (put 6 (page 1 0 0#64 (.verify 0x10008)) live)
    (after (.stretchTimeout { addressed := true, sent := 0, received := [] }) (stretched s)).events.count 7 = 1 := by decide +kernel

/-- A bus clear for a grant in progress, with the granted transaction of `j`, and the host-read requests `asked`. -/
def clearing (j : Job) (asked : List HostReadRequest) (s : State) : State :=
  { s with bus := { (withTransfer (transfer j .open []) s).bus with
    status := .clearing, sda := false, clear := some .grant, hostReads := asked } }

/-- SCL low for 35 ms to the step, and a clear that can fail; with each kind of transaction granted, a request of each kind,
each wait for the bus, and a slot WAITING. -/
theorem witness_HeldLinesMakeTheBusStuck :
    (let s := atTime 35#32 0 (stretched live);
      s.bus.lowStart = some { ms := 0#32, frac := 0 } ∧ s.undisturbed = true ∧ 350 = ({ ms := 0#32, frac := 0 } : Stamp).elapsed s.now
        ∧ s.bus.status ≠ .stuck ∧ ¬(s.bus.status = .owned ∧ s.bus.transaction ≠ none) ∧ s.events.log.length < 8)
      ∧ (∀ c : ClearCause, (onLines fun b => { b with clear := some c, sda := false }).bus.clear = some c
        ∧ (onLines fun b => { b with clear := some c, sda := false }).bus.lowStart = none
        ∧ (onLines fun b => { b with clear := some c, sda := false }).stillHeld)
      ∧ (∀ j asked, (clearing j asked live).stillHeld)
      ∧ (∀ j asked s, (clearing j asked s).job = some j ∧ (clearing j asked s).bus.hostReads = asked
        ∧ (clearing j asked s).bus.clear = some .grant)
      ∧ (clearing (.verify 6) [] verifying).bufferState 6 = .verify ∧ (clearing .stream [.verify 6] verifying).bufferState 6 = .verify
      ∧ ((withStatus 0 (cycling false) 0 live).record 0).status.probe = some (timer false)
      ∧ (State.reset.control.recordRead.isSome = true)
      ∧ (asking [] false (0, 0) live).slot.state = .waiting sensorSteps 1 0 0
      ∧ (sensing 1 false live).slot.state = .running sensorSteps 1 0 0 1 0 false :=
  ⟨by decide +kernel, fun _ => ⟨rfl, rfl, rfl, nofun⟩, fun _ _ => ⟨rfl, nofun⟩, fun _ _ _ => ⟨rfl, rfl, rfl⟩, rfl, rfl, rfl, rfl,
    by decide +kernel, rfl⟩

/-- A read that waits for its stream open, for the grant made, for its VERIFY request, and for its VERIFY read. -/
theorem witness_HeldLinesMakeTheBusStuck_reads :
    (∃ r, (reading 0x340 .bus none (clearing (.probe 0) [.streamOpen 0 0x340] live)).port = .waiting (request false 0x340) (.readPath r)
        ∧ (reading 0x340 .bus none (clearing (.probe 0) [.streamOpen 0 0x340] live)).awaitsTheBus r)
      ∧ (∃ r, (reading 0x340 .none none (clearing .stream [] live)).port = .waiting (request false 0x340) (.readPath r)
        ∧ (reading 0x340 .none none (clearing .stream [] live)).awaitsTheBus r)
      ∧ (∃ r, (reading 0x10008 .bus (some 6) (clearing (.probe 0) [.verify 6] verifying)).port
            = .waiting (request false 0x10008) (.readPath r)
        ∧ (reading 0x10008 .bus (some 6) (clearing (.probe 0) [.verify 6] verifying)).awaitsTheBus r)
      ∧ ∃ r, (reading 0x10008 .none (some 6) (clearing (.verify 6) [] verifying)).port = .waiting (request false 0x10008) (.readPath r)
        ∧ (reading 0x10008 .none (some 6) (clearing (.verify 6) [] verifying)).awaitsTheBus r :=
  ⟨⟨_, rfl, .inl ⟨rfl, 0, 0x340, .head _⟩⟩, ⟨_, rfl, .inr (.inl ⟨rfl, by decide +kernel, rfl⟩)⟩,
    ⟨_, rfl, .inr (.inr ⟨.inl rfl, 6, rfl, .inr (.head _)⟩)⟩, ⟨_, rfl, .inr (.inr ⟨.inr rfl, 6, rfl, .inl rfl⟩)⟩⟩

/-- Every buffer SEALED but an orphan VERIFY buffer, and a write that waits for one. -/
def waitingBeside : State :=
  { crowd (fun m => if m = 6 then .verify 0x10008 else .sealed false) with
    port := .waiting (request true 0x340) (.buffers (translationOf (request true 0x340))) }

theorem witness_HeldLinesMakeTheBusStuck_write :
    let s := clearing (.verify 6) [] waitingBeside
    (∀ n, s.bufferState n ≠ .free ∧ s.bufferState n ≠ .clean) ∧ (s.bufferState 0).working = true ∧ s.bus.clear = some .grant
      ∧ s.bus.lowStart = none ∧ s.port = .waiting (request true 0x340) (.buffers (translationOf (request true 0x340))) := by decide +kernel

/-- R26: the entry to STUCK refuses the write that waits, with no fault of its own, though it frees the VERIFY buffer. -/
theorem test_stuck_refuses_the_write :
    let t := after (.busClearEnd false) (clearing (.verify 6) [] waitingBeside)
    t.bufferState 6 = .free ∧ t.herr ∧ t.events.count 0 = 1 ∧ t.events.log.length = 1 := by decide +kernel

/-- R26, R55, R162: the entry to SILENT of the device of the write that waits refuses it, after the fault of the cause, though
it frees the VERIFY buffer. -/
theorem test_silence_refuses_the_write :
    let req := request true 0x10010
    let s := { waitingBeside with port := .waiting req (.buffers (translationOf req)) }
    let t := (s.enterSilent 1 none .cycleTimeout .cycleTimeout).settle
    t.bufferState 6 = .free ∧ t.herr
      ∧ t.events.log.map (fun e => e.info.kind) = [.cycleTimeout, .deviceSilentAccess] := by decide +kernel

/-- R58, R85, R97: a clear that fails with a VERIFY read granted frees its buffer and refuses its read with no fault of its
own: the log holds BUS_STUCK alone. -/
theorem test_stuck_refuses_the_read :
    let t := after (.busClearEnd false) (reading 0x10008 .none (some 6) (clearing (.verify 6) [] verifying))
    t.bufferState 6 = .free ∧ t.herr ∧ t.events.count 1 = 1 ∧ t.events.log.length = 1 := by decide +kernel

/-- A SEND step and a RECEIVE step that end, with an abort pending and without. -/
theorem witness_SequenceStepsFollowEachOther :
    (∀ abort : Bool, ∀ k ∈ [2, 4], (sensorOnBus k 0 .receive [] abort).carries .sequence
        ∧ (sensorOnBus k 0 .receive [] abort).slot.state = .running sensorSteps 1 0 0 k (if k ≤ 2 then 0 else 1) abort
        ∧ 1 ≤ k ∧ (sensorOnBus k 0 .receive [] abort).phase ≠ some .close
        ∧ (sensorOnBus k 0 .receive [] abort).reads.stream.isParked = false)
      ∧ sensorSteps[2 - 1]? = some (.send 1 true) ∧ sensorSteps[4 - 1]? = some (.receive 2 true)
      ∧ (sensorOnBus 4 0 .receive [] false).handed.length + [0x19#8, 0x80#8].length = 2
      ∧ (sensorOnBus 4 0 .receive [] false).agrees [0x19#8, 0x80#8] = true
      ∧ (sensorOnBus 2 0 .receive [] false).ModeOrdered ∧ (sensorOnBus 4 0 .receive [] false).ModeOrdered := by
  unfold State.carries
  refine ⟨by decide +kernel, rfl, rfl, rfl, rfl, ?_, ?_⟩ <;> constructor <;> decide +kernel

/-- The close after CLOSE and after another step, a refused address byte, and a refused byte of the checked SEND. -/
theorem witness_SequencesFinishAtTheirClose :
    (∀ k ∈ [2, 5], (sensorOnBus k 0 .close [] true).carries .sequence ∧ (sensorOnBus k 0 .close [] true).phase = some .close)
      ∧ sensorSteps[5 - 1]? = some .close ∧ sensorSteps[1 - 1]? = some (.open 0x48#7 false)
      ∧ sensorSteps[2 - 1]? = some (.send 1 true) ∧ 1 ≤ 0 + (sensorOnBus 2 0 .send [0x90#8] false).unsent
      ∧ (∀ k ∈ [1, 2], (sensorOnBus k 0 .send [0x90#8] false).carries .sequence
        ∧ (sensorOnBus k 0 .send [0x90#8] false).phase ≠ some .close) := by
  unfold State.carries
  decide +kernel

/-- R129 on the five steps of the sensor read: they are spelled by its submission, and pass the checks. -/
theorem sensor_passes : spells (sensorArgs.drop 2) 5 sensorSteps ∧ SequencePasses sensorSteps 1 := by
  refine ⟨⟨rfl, by decide, by simp [sensorSteps]⟩, ⟨⟨_, _, rfl⟩, rfl, ?_⟩, ⟨?_, ?_⟩, ?_, by decide, by decide⟩
  · intro i h
    have : i < 4 := Nat.lt_of_add_lt_add_right h
    interval_cases i <;> simp [sensorSteps]
  · intro i n check h
    obtain ⟨hi, h⟩ := List.getElem?_eq_some_iff.1 h
    have : i < 5 := hi
    interval_cases i <;> simp [sensorSteps] at h
    exact ⟨0, _, by omega, rfl, fun k _ _ a b => absurd a (by omega)⟩
  · intro i n last h
    obtain ⟨hi, h⟩ := List.getElem?_eq_some_iff.1 h
    have : i < 5 := hi
    interval_cases i <;> simp [sensorSteps] at h
    exact ⟨2, _, by omega, rfl, fun k _ _ a b => absurd a (by omega)⟩
  · intro j k target st hjk hj hk hst _
    obtain ⟨gj, hj⟩ := List.getElem?_eq_some_iff.1 hj
    obtain ⟨gk, hk⟩ := List.getElem?_eq_some_iff.1 hk
    have : j < 5 := gj
    have : k < 5 := gk
    interval_cases j <;> simp [sensorSteps] at hj
    interval_cases k <;> simp [sensorSteps] at hk
    · subst hk; exact absurd hst (by decide)
    · exact ⟨2, rfl⟩

/-- No OPEN of the sensor read is refused, and one of 53h is, its first OPEN being usable. -/
theorem sensor_targets (t : BitVec 7) (h : t = 0x48#7) (r : Reply) : ¬lay.refusesTarget t r := by
  subst h
  rintro (⟨a, -⟩ | ⟨-, -, d, e, hd, a, b⟩)
  · exact a (by decide)
  · revert a b
    fin_cases d <;> cases hd <;> decide

/-- The sensor submission by mode and slot; a count of 0, a byte that spells no step, steps that fail a check, a target that
is refused; and the abort of each slot state. -/
theorem witness_SequenceCommandsActOnTheSlot :
    ((inFrame live).service.frame = .command [] ∧ (inFrame live).control.mode = .running
      ∧ (sensorArgs.drop 2).length = 2 * (0x05#8).toNat + (0x01#8).toNat
      ∧ (inMode .safe (inFrame live)).control.mode ≠ .running
      ∧ (sensing 2 false (inFrame live)).slot.state.code = 2 ∧ (inFrame live).slot.state.code = 0)
    ∧ ¬(1 ≤ (0x00#8 : Byte).toNat) ∧ (∀ steps, ¬spells [0x01#8, 0x00#8] 1 steps)
    ∧ (spells [0xC0#8, 0x00#8] 1 [.close] ∧ ¬SequencePasses [.close] 0)
    ∧ (spells (sensorArgs.drop 2) 5 sensorSteps ∧ SequencePasses sensorSteps 1)
    ∧ (∀ target read r, SeqStep.open target read ∈ sensorSteps → ¬lay.refusesTarget target r)
    ∧ (lay.refusesTarget 0x53#7 .targetConflict ∧ lay.refusesTarget 0x78#7 .badArgument)
    ∧ ((asking [] false (0, 0) (inFrame live)).slot.state = .waiting sensorSteps 1 0 0
      ∧ (asking [] false (0, 0) (inFrame live)).service.frame = .command [])
    ∧ ∃ steps outLength received result,
        ({ inFrame live with slot := { live.slot with state := SlotState.finishedAs sensorSteps 1 0 live.slot.inArea .done 5 none } }
          : State).slot.state = .finished steps outLength received result := by
  refine ⟨by decide +kernel, by decide, ?_, ⟨⟨rfl, rfl, by simp⟩, fun h => ?_⟩, sensor_passes, ?_, ⟨?_, ?_⟩, by decide +kernel,
    _, _, _, _, rfl⟩
  · rintro steps ⟨a, b, -⟩
    obtain ⟨st, rfl⟩ := List.length_eq_one_iff.1 a
    rcases st with ⟨_, _⟩ | ⟨_, check⟩ | ⟨_, last⟩ | _
    · simp [SeqStep.spelled] at b
    · cases check <;> simp [SeqStep.spelled] at b
    · cases last <;> simp [SeqStep.spelled] at b
    · simp [SeqStep.spelled] at b
  · obtain ⟨⟨t, r, a⟩, -⟩ := h.1
    cases a
  · intro target read r h
    refine sensor_targets target ?_ r
    simp [sensorSteps] at h
    rcases h with ⟨rfl, -⟩ | ⟨rfl, -⟩ <;> rfl
  · exact .inr ⟨by decide, rfl, 0, _, rfl, by decide, by decide⟩
  · exact .inl ⟨by decide, rfl⟩

/-- The beginning and the end of a frame, an unknown code, and a command short of an argument or whole, in STARTING. -/
theorem witness_FramesGatherTheirArguments :
    live.service.scs = true ∧ live.service.frame = .idle ∧ (inFrame live).service.scs = false
      ∧ serviceInstr 0x04#8 [1#8] = some (.setEventMask [1#8]) ∧ [1#8].length < expectedLength 0x04#8 [1#8]
      ∧ serviceInstr 0x10#8 [] = some .getLayout ∧ ([] : List Byte).length = expectedLength 0x10#8 []
      ∧ (inFrame State.reset).control.mode = .starting
      ∧ (after (.submitSequence [5#8, 1#8]) (inFrame live)).service.frame = .arguments 0x0C#8 [5#8, 1#8] 13 []
      ∧ ([5#8, 1#8] ++ [0#8, 0x90#8]).length < expectedLength 0x0C#8 ([5#8, 1#8] ++ [0#8, 0x90#8])
      ∧ (inFrame live).service.frame.bitCount < 8
      ∧ (after .getLayout (inFrame State.reset)).service.frame = .answering 0x10#8 [] 0 0 .notReady [] 0 := by decide +kernel

/-- A command byte that has begun to arrive, and one that has not; an argument byte that has begun; a reply after a rising edge
and after a falling one. -/
theorem witness_FramesGatherTheirArguments_bits :
    (∀ (s : State) (code : Byte), (inFrame s).takesCode code)
      ∧ (after (.timeBaseTick [] ((clocks 0x11#8).take 14)) (inFrame live)).takesCode 0x11#8
      ∧ (∃ bits, (after (.timeBaseTick [] (clocks 0x04#8 ++ (clocks 7#8).take 6)) (inFrame live)).service.frame
          = .arguments 0x04#8 [] 2 bits ∧ partOf bits 7#8)
      ∧ ([] ++ [7#8, 9#8]).length = expectedLength 0x04#8 ([] ++ [7#8, 9#8]) ∧ expectedLength 0x04#8 [] ≠ 0
      ∧ serviceInstr 0x04#8 ([] ++ [7#8, 9#8]) = some (.setEventMask [7#8, 9#8])
      ∧ ∃ r, (after .getStatus (inFrame live)).service = { frame := .answering 0x01#8 [] 0 0 .ok r 0, scs := false, sck := true }
        ∧ (after (.timeBaseTick [] [.fall, .rise true]) (after .getStatus (inFrame live))).service
          = { frame := .answering 0x01#8 [] 0 1 .ok r 0, scs := false, sck := true } :=
  ⟨fun _ => command_takes rfl, ⟨(bitsOf 0x11#8).take 7, by decide +kernel, by decide, by decide⟩,
    ⟨(bitsOf 7#8).take 3, by decide +kernel, by decide, by decide⟩,
    by decide +kernel, by decide +kernel, by decide +kernel, live.statusReport, by decide +kernel, by decide +kernel⟩

/-- Buffer numbers 7 and 8, an empty log and a record in it, and an entry of each table. -/
theorem witness_ReportsAreSnapshots :
    (inFrame live).service.frame = .command [] ∧ (inFrame live).control.mode ≠ .starting
      ∧ (7#8 : Byte).toNat = (7 : Index).val ∧ 7 < (8#8 : Byte).toNat ∧ (inFrame live).events.log = []
      ∧ (live.logFault (abandonFault 0#8 none none)).events.log ≠ []
      ∧ (lay.devices.get 2).isSome = true ∧ (lay.windows.get 3).isSome = true := by decide +kernel

/-- R177: the first four bytes of the buffer report of a page of device 1 in GATHER. -/
theorem test_buffer_report :
    ((put 3 (page 1 0x12 0xFF#64 (.gather 20#32)) live).bufferReport 3).take 7 = [3#8, 1#8, 1#8, 1#8, 0x00#8, 0x12#8, 0#8] := by
  decide +kernel

/-- A buffer HELD with each of two causes, its device READY, SILENT or CYCLING. -/
theorem witness_HeldBuffersAreReleasedReissuedOrForced :
    let s := fun cause st => inFrame (withStatus 0 st 9 (put 7 (page 0 0x20 1#64 (.held cause)) live))
    (∀ cause ∈ [HoldCause.checkMismatch, .dataRefused], ∀ st ∈ [.ready, cycling false, .silent (timer false)],
        (s cause st).service.frame = .command [] ∧ (s cause st).control.mode = .running
          ∧ ((s cause st).buffer 7).hold = some (fieldsOf (page 0 0x20 1#64 (.held cause))))
      ∧ (7#8 : Byte).toNat = (7 : Index).val ∧ 7 < (8#8 : Byte).toNat ∧ (s .dataRefused .ready).bufferState 6 ≠ .held
      ∧ (s .dataRefused (.silent (timer false))).isSilent 0 = true
      ∧ ((s .checkMismatch (cycling false)).record 0).status.isReady = false
      ∧ (s .checkMismatch (cycling false)).isSilent 0 = false
      ∧ (∀ m ∈ (s .checkMismatch (cycling false)).table.queue, (s .checkMismatch (cycling false)).admits m = false)
      ∧ 7 ∉ (s .checkMismatch (cycling false)).table.queue ∧ (s .checkMismatch (cycling false)).ModeOrdered := by
  refine ⟨by decide +kernel, rfl, by decide, by decide +kernel, by decide +kernel, by decide +kernel, by decide +kernel,
    by decide +kernel, by decide +kernel, ?_⟩
  constructor <;> decide +kernel

/-- A FLUSH with a buffer to seal and no device READY, one with nothing to do, and a watch that is done. -/
theorem witness_FlushSealsInTheOrderOfWrites :
    let s := inFrame { stocked .flush with engine := { requests := [], devices := Vector.replicate 8 { status := cycling false, nacks := 0 } } }
    let watched := { live with table := { live.table with flushWatch := true } }
    (s.ModeOrdered ∧ (inFrame live).ModeOrdered)
      ∧ s.service.frame = .command [] ∧ s.control.mode ≠ .starting ∧ (∀ d, (s.record d).status.isReady = false)
      ∧ s.bufferState 2 = .gather ∧ (inFrame live).service.frame = .command []
      ∧ watched.table.flushWatch = true ∧ watched.table.queue = [] ∧ (∀ n, (watched.bufferState n).committing = false) := by
  refine ⟨⟨?_, ?_⟩, by decide +kernel⟩ <;> constructor <;> decide +kernel

/-- A count of 255 with its figure, and one below it. -/
theorem witness_AcknowledgementsReduceTheCounts :
    let figures := (List.replicate 16 0#8).set 6 255#8
    let s := inFrame { live with events := { live.events with counts := live.events.counts.set 6 255 } }
    s.service.frame = .command [] ∧ figures.length = 16 ∧ s.control.mode ≠ .starting
      ∧ s.events.count 6 = 255 ∧ figures.getD 6 0#8 = 255#8 ∧ s.events.count 2 < 255
      ∧ (figures.getD 2 0#8).toNat ≤ s.events.count 2 ∧ (inFrame State.reset).control.mode = .starting := by decide +kernel

/-- An empty log, and a record that is named or not. -/
theorem witness_MaskAndLogFollowTheirCommands :
    (inFrame live).service.frame = .command [] ∧ (inFrame live).control.mode ≠ .starting ∧ (inFrame live).events.log = []
      ∧ ∃ oldest rest, (inFrame (live.logFault (abandonFault 0#8 none none))).events.log = oldest :: rest
        ∧ oldest.number = 0#8 ++ 0#8 ∧ oldest.number ≠ 0#8 ++ 1#8 :=
  ⟨rfl, by decide +kernel, rfl, _, _, rfl, by decide +kernel, by decide +kernel⟩

/-- A full log, well kept, whose overflow count stands at its limit. -/
def fullLog : EventUnit :=
  { (List.replicate 8 (abandonFault 0#8 none none)).foldl EventUnit.append live.events with overflow := 255 }

theorem witness_FullLogsDropFaults :
    fullLog.log.length = 8 ∧ fullLog.WellKept ∧ ∃ oldest rest last, fullLog.log = oldest :: rest ∧ fullLog.log.getLast? = some last := by
  refine ⟨by decide +kernel, ?_, _, _, _, rfl, rfl⟩
  unfold EventUnit.WellKept
  decide +kernel

/-- An attempt record with the first NACK at 0. -/
def attempts (retries : Nat) : RecordRead :=
  { retries := retries, firstNack := some { ms := 0#32, frac := 0 }, nextAttempt := none, failed := false }

/-- The next attempt 64.0 ms and 64.1 ms after the first NACK, and an attempt that meets each NACK. -/
theorem witness_RecordReadIsAttemptedAgain :
    let next := fun k : Fin 10 => ({ since := { ms := 63#32, frac := 5 + k }, period := 5 } : Deadline)
    let r := fun k : Fin 10 => { attempts 0 with nextAttempt := some (next k) }
    let s := fun k : Fin 10 => atTime 64#32 k { State.reset with control := { State.reset.control with recordRead := some (r k) } }
    ((∀ k ∈ [(0 : Fin 10), 1], (s k).control.recordRead = some (r k) ∧ (next k).period = (next k).since.elapsed (s k).now)
        ∧ ({ ms := 0#32, frac := 0 } : Stamp).elapsed (next 0).time = 640 ∧ 640 < ({ ms := 0#32, frac := 0 } : Stamp).elapsed (next 1).time
        ∧ (s 0).bus.status ≠ .stuck)
      ∧ (carrying (.recordRead false) .send State.reset).carries (.recordRead false) ∧ 0 < State.reset.control.bootBytes
      ∧ (attempts 2).retries < State.reset.layout.params.retries ∧ State.reset.layout.params.retries ≤ (attempts 3).retries
      ∧ (carrying (.recordRead true) .send State.reset).carries (.recordRead true)
      ∧ (∀ dropped, (carrying (.recordRead dropped) .send State.reset).addressToCome true)
      ∧ (carrying (.recordRead false) .send State.reset).byteToCome 0 := by
  unfold State.carries
  exact ⟨by decide +kernel, by decide +kernel, by decide +kernel, by decide +kernel, by decide +kernel, by decide +kernel,
    fun _ => ⟨_, rfl, .inr (.inr ⟨.inl rfl, rfl⟩)⟩, ⟨_, rfl, .inr (.inr ⟨rfl, Nat.zero_le _⟩)⟩⟩

/-- A record read on the bus, at start-up or in a reload, with the bytes `got` handed over. -/
def recordOnBus (m : Mode) (got : List Byte) : State :=
  withTransfer { transfer (.recordRead false) .receive [] with received := got }
    { State.reset with control := { State.reset.control with mode := m } }

theorem recordOnBus_handed (m : Mode) (got : List Byte) : (recordOnBus m got).handed = got := rfl

theorem recordOnBus_carries (m : Mode) (got : List Byte) : (recordOnBus m got).carries (.recordRead false) :=
  ⟨rfl, rfl, rfl, rfl⟩

theorem record_length : (record 8 1 0).length = 144 := by decide +kernel

/-- A read that failed, and one that ends with a record that is accepted, its first bytes handed over before, or rejected
with BAD_MARKER. -/
theorem witness_RecordReadsEndInALayout :
    (∀ m ∈ [Mode.starting, .reloading .reading], (recordOnBus m []).ModeOrdered ∧ (recordOnBus m []).control.mode = m
        ∧ (recordOnBus m []).events.log.length < 8
        ∧ (recordOnBus m ((record 8 1 0).take 20)).recordEndsAs ((record 8 1 0).drop 20) none
        ∧ (recordOnBus m []).recordEndsAs (List.replicate 144 0#8) (some .badMarker))
      ∧ unread.ModeOrdered ∧ unread.recordEndsAs [] (some .recordUnreadable) := by
  refine ⟨?_, by constructor <;> decide +kernel, _, rfl, .inl ⟨rfl, rfl⟩⟩
  intro m h
  have e : m = .starting ∨ m = .reloading .reading := by simpa using h
  have accepted : (recordOnBus m ((record 8 1 0).take 20)).recordEndsAs ((record 8 1 0).drop 20) none := by
    refine ⟨_, rfl, .inr ⟨rfl, recordOnBus_carries _ _, ?_, agrees_of_no_wire _ _ rfl, ?_⟩⟩ <;> rw [recordOnBus_handed, List.take_append_drop]
    · exact record_length
    · exact test_example_record_is_accepted.1.symm
  rcases e with rfl | rfl <;>
    exact ⟨by constructor <;> decide +kernel, rfl, by decide +kernel, accepted,
      ⟨_, rfl, .inr ⟨rfl, recordOnBus_carries _ _, by decide +kernel, agrees_of_no_wire _ _ rfl, by decide +kernel⟩⟩⟩

/-- RELOAD LAYOUT outside RUNNING, with a buffer HELD, with pages to drain, with a sequence in the slot, with neither;
and the two stages whose conditions hold. -/
theorem witness_ReloadsPassThroughTheirStages :
    let s := inFrame live
    let held := inFrame (put 7 (page 0 0x20 1#64 (.held .dataRefused)) live)
    s.service.frame = .command [] ∧ (inMode .safe s).control.mode ≠ .starting ∧ (inMode .safe s).control.mode ≠ .running
      ∧ held.control.mode = .running ∧ (∃ n, held.bufferState n = .held)
      ∧ s.control.mode = .running ∧ (∀ n, s.bufferState n ≠ .held) ∧ s.QueueExact ∧ s.table.queue = []
      ∧ (∀ n, (s.bufferState n).working = false) ∧ s.slot.state.code = 0 ∧ (sensing 2 false s).slot.state.code = 2
      ∧ (inFrame (stocked .flush)).bufferState 0 = .commit ∧ (inFrame (stocked .flush)).QueueExact
      ∧ (inMode (.reloading .draining) s).control.mode = .reloading .draining
      ∧ (inMode (.reloading .sequence) s).control.mode = .reloading .sequence ∧ s.bus.status ≠ .stuck := by
  unfold State.QueueExact
  decide +kernel

/-- PFW# falls in RUNNING and in a reload, with something in flight and with nothing, with an access and a sequence that
wait; it falls in another mode; a flush that is drained, PFW# high or low; PFW# rises. -/
theorem witness_PowerFailFlushEndsInSafe :
    let low := fun s : State => { s with control := { s.control with pfw := false } }
    (live.control.pfw = true ∧ live.control.mode = .running ∧ (inMode (.reloading .sequence) live).control.mode.isReloading = true
        ∧ live.events.log.length < 8 ∧ (∀ n, (live.bufferState n).working = false) ∧ live.slot.state.code ≠ 2
        ∧ ((stocked .flush).bufferState 0).working = true ∧ (∃ req hold, (reading 0x340 .device none live).port = .waiting req hold)
        ∧ (asking [] false (0, 0) live).slot.state = .waiting sensorSteps 1 0 0
        ∧ (sensing 2 false live).slot.state = .running sensorSteps 1 0 0 2 0 false)
      ∧ State.reset.control.pfw = true ∧ State.reset.control.mode = .starting
      ∧ (inMode .flushing live).control.mode = .flushing ∧ (inMode .flushing live).control.pfw = true
      ∧ (∀ n, ((inMode .flushing live).bufferState n).working = false) ∧ (low (inMode .flushing live)).control.pfw = false
      ∧ (low (inMode .safe live)).control.pfw = false :=
  ⟨⟨rfl, rfl, rfl, by decide +kernel, by decide +kernel, by decide +kernel, by decide +kernel, ⟨_, _, rfl⟩, by decide +kernel,
    by decide +kernel⟩, by decide +kernel⟩
end Sys2Proof.Tests
end

section
/-! The check word (R90): how it takes a byte, how its two bytes stand in a page and in a layout record. -/

namespace Sys2Proof.Machine

/-! ### The two bytes of a 16-bit field -/

theorem highByte_eq_extractLsb' (h : Half) : highByte h = h.extractLsb' 8 8 := by
  ext i
  simp [highByte]

theorem lowByte_eq_extractLsb' (h : Half) : lowByte h = h.extractLsb' 0 8 := by
  ext i hi
  simp [lowByte, show i < 16 by omega]

@[simp] theorem highByte_append (a b : Byte) : highByte (a ++ b) = a := by
  rw [highByte_eq_extractLsb', BitVec.extractLsb'_append_eq_left]

@[simp] theorem lowByte_append (a b : Byte) : lowByte (a ++ b) = b := by
  rw [lowByte_eq_extractLsb', BitVec.extractLsb'_append_eq_right]

theorem highByte_append_lowByte (h : Half) : highByte h ++ lowByte h = h := by
  rw [highByte_eq_extractLsb', lowByte_eq_extractLsb']
  exact (BitVec.extractLsb'_append_extractLsb'_eq_extractLsb' (by decide)).trans BitVec.extractLsb'_eq_self

/-- A field is its two bytes, the high one first. -/
theorem eq_append_iff_highByte_lowByte (h : Half) (a b : Byte) : h = a ++ b ↔ a = highByte h ∧ b = lowByte h := by
  constructor
  · rintro rfl
    simp
  · rintro ⟨rfl, rfl⟩
    exact (highByte_append_lowByte h).symm

/-- A byte added into the high eight bits. -/
theorem setWidth_shiftLeft_eq_append_zero (b : Byte) : b.setWidth 16 <<< 8 = b ++ 0#8 := by
  rw [BitVec.append_def]
  simp [BitVec.shiftLeftZeroExtend_eq]

theorem toNat_append_byte (a b : Byte) : (a ++ b).toNat = a.toNat * 256 + b.toNat := by
  rw [BitVec.toNat_append, ← Nat.shiftLeft_add_eq_or_of_lt b.isLt, Nat.shiftLeft_eq]

/-! ### The check word, byte by byte -/

theorem crcBit_eq (c : Half) : crcBit c = (c <<< 1) ^^^ (if c.getLsbD 15 then 0x1021#16 else 0#16) := by
  unfold crcBit
  rw [show c.getMsbD 0 = c.getLsbD 15 by simp [BitVec.getMsbD]]
  split <;> simp

theorem crcByte_eq_foldl (c : Half) (b : Byte) :
    crcByte c b = (List.range 8).foldl
      (fun (c : Half) _ => (c <<< 1) ^^^ (if c.getLsbD 15 then 0x1021#16 else 0#16)) (c ^^^ (b ++ 0#8)) := by
  simp only [← crcBit_eq, ← setWidth_shiftLeft_eq_append_zero]
  rfl

@[simp] theorem checkWord_nil : checkWord [] = 0xFFFF#16 := rfl

theorem checkWord_append_singleton (bs : List Byte) (b : Byte) : checkWord (bs ++ [b]) = crcByte (checkWord bs) b :=
  List.foldl_concat ..

/-! ### The check word of a page -/

theorem pageMatches_append_iff (bs : List Byte) (a b : Byte) :
    pageMatches (bs ++ [a, b]) ↔ a = highByte (checkWord bs) ∧ b = lowByte (checkWord bs) := by
  simp [pageMatches]

theorem Image.byte_build (f : Nat → Byte) {p : Nat} (hp : p < 64) : (Image.build f).byte p = f p := by
  simp [Image.build, Image.byte, hp]

theorem Image.byte_place (im : Image) (first : Nat) (bs : List Byte) {p : Nat} (hp : p < 64) :
    (im.place first bs).byte p =
      if first ≤ p ∧ p < first + bs.length then bs.getD (p - first) 0#8 else im.byte p := by
  simp [Image.place, Image.byte_build _ hp]

/-- Two bytes placed at position `first`: each where it goes, every other byte as it was. -/
theorem Image.byte_place_pair (im : Image) (first : Nat) (a b : Byte) {p : Nat} (hp : p < 64) :
    (im.place first [a, b]).byte p = if p = first then a else if p = first + 1 then b else im.byte p := by
  rw [Image.byte_place im first _ hp]
  rcases Nat.lt_trichotomy p first with below | rfl | above
  · simp [show ¬first ≤ p by omega, show p ≠ first by omega, show p ≠ first + 1 by omega]
  · simp
  · by_cases next : p = first + 1
    · simp [next]
    · simp [show ¬p < first + 2 by omega, show p ≠ first by omega, next]

theorem Image.byte_placeWord (im : Image) (size : Nat) {p : Nat} (hp : p < 64) :
    (im.placeWord size).byte p =
      if p = size - 2 then highByte (checkWord (im.firstBytes (size - 2)))
      else if p = size - 2 + 1 then lowByte (checkWord (im.firstBytes (size - 2))) else im.byte p :=
  Image.byte_place_pair im _ _ _ hp

/-! ### The check word of a layout record (R13) -/

theorem recordPair_eq_toNat_append (r : List Byte) (i : Nat) :
    recordPair r i = (r.getD i 0#8 ++ r.getD (i + 1) 0#8).toNat :=
  (toNat_append_byte ..).symm

theorem checkWhole_eq_none_of_validate {r : List Byte} (accepted : validate r = none) : checkWhole r = none := by
  unfold validate at accepted
  split at accepted
  case h_1 => cases accepted
  case h_2 whole => exact whole

theorem checkWord_eq_recordPair_of_checkWhole {r : List Byte} (whole : checkWhole r = none) :
    (checkWord (r.take 142)).toNat = recordPair r 142 := by
  by_contra differs
  unfold checkWhole at whole
  split_ifs at whole
  split at whole <;> cases whole

theorem checkWord_eq_append_of_validate {r : List Byte} (accepted : validate r = none) :
    checkWord (r.take 142) = r.getD 142 0#8 ++ r.getD 143 0#8 := by
  have pair := checkWord_eq_recordPair_of_checkWhole (checkWhole_eq_none_of_validate accepted)
  exact BitVec.eq_of_toNat_eq (pair.trans (recordPair_eq_toNat_append r 142))

/-! ### The statement -/

/-- Settles O28: the byte rule, the check value, the match, the placing and the record, a lemma for each. -/
theorem checkWordFollowsItsRule : Obligations.CheckWordFollowsItsRule := by
  refine ⟨checkWord_nil, fun bs b => ?byteTaken, by decide +kernel, fun bs a b => ?pageMatch,
    fun im size p two_le _ hp => ?placed, fun r => checkWord_eq_append_of_validate⟩
  case byteTaken => rw [checkWord_append_singleton, crcByte_eq_foldl]
  case pageMatch => rw [pageMatches_append_iff, eq_append_iff_highByte_lowByte]
  case placed =>
    have last : size - 1 = size - 2 + 1 := by omega
    rw [Image.byte_placeWord im size hp, highByte_eq_extractLsb', lowByte_eq_extractLsb', last]
    rfl

end Sys2Proof.Machine
end

section
/-! The Event Unit: a command is taken on the service port (R146 to R151), acknowledgements reduce the counts (R160), a
full log drops faults (R163). -/

namespace Sys2Proof.Machine

/-! ### A command is taken (R146 to R151) -/

theorem sentBits_eq_bitsOf (v : Byte) : sentBits v = bitsOf v := by
  refine List.map_congr_left fun i inByte => ?_
  have : i < 8 := List.mem_range.mp inByte
  simp [sentBit, BitVec.getMsbD, this]

theorem begins_of_partOf {bits : List Bool} {v : Byte} (part : partOf bits v) : begins bits v = true := by
  obtain ⟨short, leading⟩ := part
  simp [begins, short, sentBits_eq_bitsOf, leading]

/-- With its last argument byte received, a command is taken. -/
theorem Sampled.ofBytes_of_length_eq {code : Byte} {args : List Byte} (whole : args.length = expectedLength code args) :
    Sampled.ofBytes code args = .takes code args := by
  simp [Sampled.ofBytes, ← whole]

/-- R147, R150: a frame in COMMAND that receives the code and all its argument bytes answers what the command gives. -/
theorem State.receive_of_takesCode {s : State} {code : Byte} {args : List Byte} (atCode : s.takesCode code)
    (whole : args.length = expectedLength code args) :
    s.receive code args = .next ((s.answerTo code args).state.replied code args (s.answerTo code args).reply
      (s.answerTo code args).response) := by
  obtain ⟨bits, inCommand, part⟩ := atCode
  have gathered : s.service.frame.gather (code :: args) = some (code, args) := by
    simp [inCommand, Frame.gather, begins_of_partOf part]
  simp only [State.receive, inCommand]
  simp only [State.receiveBytes, gathered, Sampled.ofBytes_of_length_eq whole]
  rfl

/-- R151: in STARTING every command but GET STATUS is declined with NOT_READY. -/
theorem State.answerTo_of_starting {s : State} {code : Byte} {c : ServiceCommand} (args : List Byte)
    (named : ServiceCommand.ofCode code = some c) (other : c ≠ .getStatus) (starting : s.control.mode = .starting) :
    s.answerTo code args = declined .notReady s := by
  simp [State.answerTo, named, other, starting]

/-- R151, R152: in any other mode a command takes its own tests and effect. -/
theorem State.answerTo_of_not_starting {s : State} {code : Byte} {c : ServiceCommand} (args : List Byte)
    (named : ServiceCommand.ofCode code = some c) (ready : s.control.mode ≠ .starting) :
    s.answerTo code args = c.act args s := by
  simp [State.answerTo, named, ready]

/-! ### ACKNOWLEDGE EVENTS (R160) -/

theorem ServiceCommand.ofCode_acknowledgeEvents : ServiceCommand.ofCode 0x03#8 = some .acknowledgeEvents := rfl

theorem EventUnit.count_acknowledge (e : EventUnit) (figures : List Byte) (k : Fin 16) :
    (e.acknowledge figures).count k = e.count k - (figures.getD k.val 0#8).toNat := by
  simp [EventUnit.count, EventUnit.acknowledge, vector_get]

theorem EventUnit.acknowledge_with_counts (e : EventUnit) (figures : List Byte) :
    { e.acknowledge figures with counts := e.counts } = e := by
  simp only [acknowledge]

theorem exec_acknowledgeEvents {s : State} {figures : List Byte} (atCode : s.takesCode 0x03#8)
    (whole : figures.length = 16) :
    exec (.acknowledgeEvents figures) s
      = .next ((s.answerTo 0x03#8 figures).state.replied 0x03#8 figures (s.answerTo 0x03#8 figures).reply
          (s.answerTo 0x03#8 figures).response) :=
  State.receive_of_takesCode atCode whole

/-- R160: below saturation an arrival and an acknowledgement of no more than the count commute in the count. -/
theorem EventUnit.count_acknowledge_arrive {e : EventUnit} {figures : List Byte} {kind : EventKind}
    (below : e.count kind.number < 255) (within : (figures.getD kind.number.val 0#8).toNat ≤ e.count kind.number) :
    ((e.arrive kind).acknowledge figures).count kind.number
      = ((e.acknowledge figures).arrive kind).count kind.number := by
  simp only [count_acknowledge, count_arrive]
  omega

/-- R159, R160: at 255 an arrival before an acknowledgement of 255 is lost, and one after it is left as 1. -/
theorem EventUnit.count_acknowledge_saturated {e : EventUnit} {figures : List Byte} {kind : EventKind}
    (saturated : e.count kind.number = 255) (all : figures.getD kind.number.val 0#8 = 255#8) :
    ((e.arrive kind).acknowledge figures).count kind.number = 0
      ∧ ((e.acknowledge figures).arrive kind).count kind.number = 1 := by
  simp only [count_acknowledge, count_arrive, saturated, all]
  decide

/-- Settles O54: the command taken in either case of the mode, the reduction, and an arrival on either side of it. -/
theorem acknowledgementsReduceTheCounts : Obligations.AcknowledgementsReduceTheCounts := by
  intro s figures atCode whole
  refine ⟨fun starting => ?refused, fun ready => ⟨s.events.acknowledge figures, fun k => ?reduced,
    s.events.acknowledge_with_counts figures, ?taken, fun kind => ⟨EventUnit.count_acknowledge_arrive,
      EventUnit.count_acknowledge_saturated⟩⟩⟩
  case refused =>
    rw [exec_acknowledgeEvents atCode whole,
      State.answerTo_of_starting figures ServiceCommand.ofCode_acknowledgeEvents nofun starting]
    rfl
  case reduced =>
    rw [EventUnit.count_acknowledge]
    omega
  case taken =>
    rw [exec_acknowledgeEvents atCode whole,
      State.answerTo_of_not_starting figures ServiceCommand.ofCode_acknowledgeEvents ready]
    rfl

/-! ### A full log (R163) -/

section
variable {e : EventUnit} (f : FaultInfo)

theorem EventUnit.append_full_log (full : e.log.length = 8) : (e.append f).log = e.log := by
  rw [append_full e f full.not_lt, arrive_log]

theorem EventUnit.append_full_counter (full : e.log.length = 8) : (e.append f).counter = e.counter := by
  rw [append_full e f full.not_lt, arrive_counter]

theorem EventUnit.append_full_overflow (full : e.log.length = 8) :
    (e.append f).overflow = min 255 (e.overflow + 1) := by
  rw [append_full e f full.not_lt, arrive_overflow]

/-- A dropped fault raises the count of LOG_OVERFLOW, up to 255. -/
theorem EventUnit.append_full_count_logOverflow (full : e.log.length = 8) :
    (e.append f).count 15 = min 255 (e.count 15 + 1) := by
  rw [append_full e f full.not_lt]
  exact count_arrive _ .logOverflow

/-- A dropped fault changes no other count. -/
theorem EventUnit.append_full_count_ne (full : e.log.length = 8) {k : Fin 16} (other : k ≠ 15) :
    (e.append f).count k = e.count k := by
  rw [append_full e f full.not_lt]
  exact count_arrive_ne _ .logOverflow k other

end

/-- R162: the number of the newest record is one below the counter. -/
theorem EventUnit.WellKept.getLast_number_add_one {e : EventUnit} (kept : e.WellKept) {last : FaultRecord}
    (isLast : e.log.getLast? = some last) : last.number + 1#16 = e.counter := by
  obtain ⟨_, _, _, numbered⟩ := kept
  have nonempty : e.log.length ≠ 0 := by
    intro empty
    simp [List.eq_nil_of_length_eq_zero empty] at isLast
  have lastNumber := congrArg List.getLast? numbered
  rw [List.getLast?_map, List.getLast?_map, isLast, List.getLast?_range, if_neg nonempty] at lastNumber
  have atEnd : e.log.length - (e.log.length - 1) = 1 := by omega
  simp only [Option.map_some, Option.some.injEq, atEnd] at lastNumber
  rw [lastNumber, BitVec.sub_add_cancel]

/-- R163, R164: a full log loses a fault, then its oldest record; the next fault takes the number one above that of the last
record kept, as if the lost one had never come. -/
theorem EventUnit.append_after_drop {e : EventUnit} (f g : FaultInfo) {oldest last : FaultRecord}
    {rest : List FaultRecord} (full : e.log.length = 8) (kept : e.WellKept) (log : e.log = oldest :: rest)
    (isLast : e.log.getLast? = some last) :
    ∃ x, (({ e.append f with log := rest } : EventUnit).append g).log = rest ++ [x]
      ∧ x.number = last.number + 1#16 := by
  have room : rest.length < 8 := by
    rw [log, List.length_cons] at full
    omega
  refine ⟨_, append_log { e.append f with log := rest } g room, ?_⟩
  rw [kept.getLast_number_add_one isLast]
  exact append_full_counter f full

/-- R153: the overflow count is byte 22 of the status report. -/
theorem State.statusReport_overflow (s : State) :
    s.statusReport[22]? = some (BitVec.ofNat 8 s.events.overflow) := rfl

/-- R154: the overflow count is byte 19 of the event report. -/
theorem EventUnit.report_overflow (e : EventUnit) : e.report[19]? = some (BitVec.ofNat 8 e.overflow) := rfl

theorem exec_reset (bootA : BitVec 3) (bootW scl sda : Bool) (s : State) :
    exec (.reset bootA bootW scl sda) s = .next (State.afterReset bootA bootW scl sda s.pending s.service.scs
      s.service.sck s.control.pfw) := rfl

/-- R165: no fault has been dropped at the end of a reset. -/
theorem overflow_of_exec_reset {bootA : BitVec 3} {bootW scl sda : Bool} {s t : State}
    (next : exec (.reset bootA bootW scl sda) s = .next t) : t.events.overflow = 0 := by
  rw [exec_reset] at next
  cases next
  rfl

theorem State.install_overflow (s : State) (l : Layout) (source : LayoutSource) :
    (s.install l source).events.overflow = s.events.overflow := rfl

/-- Settles O56: what a dropped fault changes, the number after it, and where the overflow count shows and stays. -/
theorem fullLogsDropFaults : Obligations.FullLogsDropFaults := by
  refine ⟨fun e f full => ⟨?log, ?counter, ?overflow, ?counted, ?others, ?next⟩,
    fun s => ⟨s.statusReport_overflow, s.events.report_overflow⟩, fun a w scl sda s t => overflow_of_exec_reset,
    State.install_overflow, fun s f => rfl⟩
  case log => exact EventUnit.append_full_log f full
  case counter => exact EventUnit.append_full_counter f full
  case overflow => exact EventUnit.append_full_overflow f full
  case counted => exact EventUnit.append_full_count_logOverflow f full
  case others => exact fun k => EventUnit.append_full_count_ne f full
  case next => exact fun oldest rest g last => EventUnit.append_after_drop f g full

end Sys2Proof.Machine
end
